-- ==== Sys2Proof/Word.lean ====
section
/-! DEFINITION. The widths of the machine's values (rules R8, R15, R16 of spec/00_scope.md). -/

namespace Sys2Proof

/-- A 64-bit register value, virtual address or physical address (XLEN = 64, R8). -/
abbrev Word := BitVec 64

/-- One byte of memory. -/
abbrev Byte := BitVec 8

/-- The number of an integer register, 0 to 31 (R30). -/
abbrev RegIdx := BitVec 5

/-- A 3-bit compressed register field: r' names register `x[8 + r']` (R211). -/
abbrev CRegIdx := BitVec 3

/-- The 12-bit number of a CSR (R50). -/
abbrev CsrNum := BitVec 12

end Sys2Proof
end

