-- ==== Sys2Proof/Config.lean ====
section
/-! DEFINITION. What an implementation fixes (the open parameters of rule R9, spec/00_scope.md), the device
contract of rule R108, and the free values of the model. The switches of rule R10 are not alternatives here: every
definition follows the decided value. -/

namespace Sys2Proof

/-! ### The Address Space tree (R100 to R102, spec/20_memory.md) -/

/-- What stands behind a node of the Address Space (R100, R108; DESIGN CHOICE, log entry 10).
A memory device holds at each byte the value last written there; a ROM or flash device the value loaded at boot;
any other device is unconstrained. `base` is the key, in the State's list of cells, of the device's offset 0. -/
inductive Device where
  /-- the node has no device: an access is fatal NoDevice (R107) -/
  | absent
  /-- RAM whose offset 0 is the cell `base` of State.mem -/
  | memory (base : Nat)
  /-- ROM or flash whose offset 0 is the cell `base` of State.rom -/
  | rom (base : Nat)
  /-- a device the spec does not describe, under a number of its own -/
  | other (handle : Nat)
  deriving DecidableEq, Repr

/-- An ordered list of Address Space nodes, each with its own children (R100): first child and next sibling, so
that one structural recursion walks the tree. `start` and `stop` are inclusive and stand in the coordinates the
parent receives (R101, spec/90_conflicts.md C3). -/
inductive Nodes where
  | none
  | node (start stop : Word) (device : Device) (children : Nodes) (next : Nodes)
  deriving DecidableEq, Repr

/-- The root of the Address Space tree (`PhysMap` of R9). -/
structure PhysMap where
  start : Word
  stop : Word
  device : Device
  children : Nodes
  deriving DecidableEq, Repr

/-- `Route(node, addr)` of R102: `device` is the device of the node whose children are `children`. The first child
whose range holds the address takes it, relative to the child's start; with no match the node's own device does. -/
def Nodes.route (device : Device) (children : Nodes) (addr : Word) : Device × Word :=
  match children with
  | .none => (device, addr)
  | .node start stop dev sub next =>
    if start ≤ addr ∧ addr ≤ stop then sub.route dev (addr - start) else next.route device addr

/-- The device that answers a physical address, and the offset it sees (R102, R103). -/
def PhysMap.route (m : PhysMap) (pa : Word) : Device × Word :=
  m.children.route m.device pa

/-- No node of the list `ns` overlaps the range `[start, stop]`. -/
def Nodes.disjointFrom (start stop : Word) : Nodes → Bool
  | .none => true
  | .node st sp _ _ next => (sp < start || stop < st) && next.disjointFrom start stop

/-- The configuration invariant of R101: siblings are disjoint and each lies in `[0, room]`, its parent's extent. -/
def Nodes.wf (room : Word) : Nodes → Bool
  | .none => true
  | .node st sp _ sub next =>
    decide (st ≤ sp) && decide (sp ≤ room) && next.disjointFrom st sp && sub.wf (sp - st) && next.wf room

/-- R101 for the whole tree. -/
def PhysMap.wf (m : PhysMap) : Bool := decide (m.start ≤ m.stop) && m.children.wf (m.stop - m.start)

/-- A device whose reads the spec describes: none, memory, ROM or flash (R107, R108). -/
def Device.described : Device → Bool
  | .other _ => false
  | .absent => true
  | .memory _ => true
  | .rom _ => true

/-- The list holds no device the spec leaves undescribed. -/
def Nodes.described : Nodes → Bool
  | .none => true
  | .node _ _ dev sub next => dev.described && sub.described && next.described

/-- The whole tree holds no device the spec leaves undescribed. -/
def PhysMap.described (m : PhysMap) : Bool := m.device.described && m.children.described

/-! ### The parameters of the platform (R9) -/

/-- The open parameters of R9 that a step needs. They are held in State so that a state says on which platform it
runs; no step changes them (log entry 6). -/
structure Platform where
  /-- `RESET_PC` -/
  resetPc : Word
  /-- `PhysMap` -/
  physMap : PhysMap
  /-- `EXT_IRQ_CODE`, 0 to 63 -/
  extIrqCode : BitVec 6
  /-- `TIMER_IRQ_CODE`, 0 to 63 -/
  timerIrqCode : BitVec 6
  /-- `CSR_FATAL_SET` -/
  csrFatalSet : List CsrNum
  deriving DecidableEq, Repr

/-- The platform of the state after reset. DESIGN CHOICE (log entries 2, 3, 5): RESET_PC 0, one memory device over
the whole physical address space, the suggested interrupt codes 11 and 7, no fatal CSR number. -/
def Platform.default : Platform where
  resetPc := 0
  physMap := { start := 0, stop := BitVec.allOnes 64, device := .memory 0, children := .none }
  extIrqCode := 11
  timerIrqCode := 7
  csrFatalSet := []

/-! ### The device contract (R108, R109) -/

/-- Whether a physical access reads or writes (the `op` of NoDevice, R13). -/
inductive AccessOp where
  | read
  | write
  deriving DecidableEq, Repr

/-- The read-modify-write tags of R109. -/
inductive RmwTag where
  | none
  | lr
  | sc
  | swap
  | add
  | xor
  | and
  | or
  | min
  | max
  | minu
  | maxu
  deriving DecidableEq, Repr

/-- One call of a device's `read_op` or `write_op` (R108); `data` is 0 for a read. -/
structure DeviceAccess where
  device : Device
  op : AccessOp
  offset : Word
  size : Nat
  data : Word
  tag : RmwTag
  deriving DecidableEq, Repr

/-- The three computed counters (R66, R75). -/
inductive CounterId where
  | cycle
  | time
  | instret
  deriving DecidableEq, Repr

/-! ### Free values

No body: nothing in Lean can evaluate them, and a theorem that mentions one holds whatever its value is. The Nat is
State.draws, the number of draws made before (log entry 8), but for `initialByte`. -/

/-- The byte of RAM or ROM at a key that nothing has written and no image covers: the initial memory content, which the
spec leaves open and forbids to take as zero (R572, U16, N8; log entry 4). The Nat is the key of the byte. -/
opaque Config.initialByte : Nat → Byte

/-- The level of the external interrupt input in a cycle whose sample State.irqInputs does not give (R520, U18). -/
opaque Config.pollExternal : Nat → Bool

/-- The level of the timer interrupt input in such a cycle (R520, U18). -/
opaque Config.pollTimer : Nat → Bool

/-- `CounterRead(which)` of R75 (U13): no law. -/
opaque Config.counterRead : CounterId → Nat → Word

/-- What a device that is not memory answers to an access (R108, U15), and what a ROM answers to a write. -/
opaque Config.deviceValue : DeviceAccess → Nat → Word

/-- The bytes of RAM such an access writes as its side effect (R150, R154, U15). -/
opaque Config.deviceEffects : DeviceAccess → Nat → List Host.Cell

end Sys2Proof
end

