-- ==== Sys2Proof/Machine/State.lean ====
section
/-! DEFINITION. The state of the machine (spec/10_state.md), the reasons a cycle can end a run (R13, R14 of
spec/00_scope.md), and the state after reset (R80, R570). Plain data throughout. -/

namespace Sys2Proof.Machine

/-- A privilege level (R37, R500): User = 0, Supervisor = 1, Machine = 3; the value 2 is never held. -/
inductive Priv where
  | user
  | supervisor
  | machine
  deriving DecidableEq, Repr

/-- The operations that can reach trap-exit (R412 to R414, R540). -/
inductive TrapExitOp where
  | uret
  | sret
  | mret
  deriving DecidableEq, Repr

/-- The implementation-fatal conditions of R13: the hart stops for good. Each is the spec's own end of a run; a claim
of normal completion is refuted by it, so none of them lets a false claim be proved (safe). -/
inductive Fault where
  /-- the decoder reached an encoding in no table (R205), among them the all-zero parcel (R439) and the unassigned
  compressed spaces (R435, R462); raised by the decode step and by `execCIllegal`, `execCReservedQ0`,
  `execCReservedQ1`. Safe. -/
  | unknownEncoding (bits : BitVec 32)
  /-- a CSR operation outside WRITE, SET, CLEAR (R71); raised by `csrUpdate`, from no decoded instruction. Safe. -/
  | badCsrOp
  /-- an access width outside 1, 2, 4, 8 (R105); raised by `physRead` and `physWrite`, from no decoded instruction.
  Safe. -/
  | badWidth
  /-- a physical address with no device (R107): fetch, data access or page-table read; raised by `physRead` and
  `physWrite`. Safe. -/
  | noDevice (pa : Word) (n : Nat) (op : AccessOp)
  /-- trap exit with an operation other than SRET and MRET (R412, R540): URET; raised by `trapExit`. Safe. -/
  | badTrapExit (op : TrapExitOp)
  /-- a CSR number in CSR_FATAL_SET (R70); raised by `csrRead`. Safe. -/
  | csrPanic (addr : CsrNum)
  deriving DecidableEq, Repr

/-- The refusals of R14: the spec shows that the reference does something and not what. -/
inductive Refusal where
  /-- an instruction with no meaning in this model; raised by an arm of `exec`, none at present. Safe. -/
  | notModelled (mnemonic : String)
  /-- a floating-point encoding (R206) or CSR (R68); raised by the floating-point meanings and by `csrRead`. Safe. -/
  | floatingPoint
  /-- a reserved operand form of a compressed row (R216); raised by the decode step. Safe. -/
  | reservedCompressed
  /-- MRET with `mstatus.MPP` = 2 (R414); raised by `trapExit`. Safe. -/
  | badPrivilegeValue
  deriving DecidableEq, Repr

/-- The `halted` mark (R40). -/
inductive Halted where
  | running
  | fatal (reason : Fault)
  deriving DecidableEq, Repr

/-- The two widths of a reservation (R39). -/
inductive AmoWidth where
  | word
  | double
  deriving DecidableEq, Repr

/-- The load reservation `some(pa, n)` (R39). -/
structure Reservation where
  pa : Word
  width : AmoWidth
  deriving DecidableEq, Repr

/-- The levels of the two interrupt inputs in one cycle (R520). -/
structure IrqSample where
  external : Bool
  timer : Bool
  deriving DecidableEq, Repr

/-- The CSR array of R50: 4096 slots of 64 bits. The stored registers of its table stand each under its own name; the
other 4068 slots are the list `others`, sparse: numbers strictly rising, no slot that is 0 listed (log entry 13). -/
structure CsrFile where
  sstatus : Word
  sedeleg : Word
  sideleg : Word
  sie : Word
  stvec : Word
  scounteren : Word
  sscratch : Word
  sepc : Word
  scause : Word
  stval : Word
  sip : Word
  satp : Word
  mstatus : Word
  misa : Word
  medeleg : Word
  mideleg : Word
  mie : Word
  mtvec : Word
  mcounteren : Word
  mscratch : Word
  mepc : Word
  mcause : Word
  mtval : Word
  mip : Word
  mvendorid : Word
  marchid : Word
  mimpid : Word
  mhartid : Word
  /-- the slots of the numbers the table of R50 gives no stored register -/
  others : List (CsrNum × Word)
  deriving DecidableEq, Repr

/-- Every slot 0: the CSR array after reset (R80). -/
def CsrFile.zero : CsrFile where
  sstatus := 0
  sedeleg := 0
  sideleg := 0
  sie := 0
  stvec := 0
  scounteren := 0
  sscratch := 0
  sepc := 0
  scause := 0
  stval := 0
  sip := 0
  satp := 0
  mstatus := 0
  misa := 0
  medeleg := 0
  mideleg := 0
  mie := 0
  mtvec := 0
  mcounteren := 0
  mscratch := 0
  mepc := 0
  mcause := 0
  mtval := 0
  mip := 0
  mvendorid := 0
  marchid := 0
  mimpid := 0
  mhartid := 0
  others := []

/-- The whole state: the hart (spec/10_state.md), the memory behind its Address Space (R76), the platform it stands
on (R9), and the two fields of the model's own, `irqInputs` and `draws` (log entries 7, 8). -/
structure State where
  /-- x1 to x31; x0 is hard-wired (R30) -/
  regs : Vector Word 31
  /-- f0 to f31 (R36) -/
  fregs : Vector Word 32
  /-- the pc (R33) -/
  pc : Word
  /-- the current privilege level (R37) -/
  priv : Priv
  /-- the CSR array (R8, R50) -/
  csr : CsrFile
  /-- the load reservation (R39) -/
  resv : Option Reservation
  /-- the halted mark (R40) -/
  halted : Halted
  /-- the bytes of the memory devices written or loaded so far (R108), addresses strictly rising; what the others hold is
  the initial content, a free value each (R572; log entry 4) -/
  mem : List Host.Cell
  /-- the bytes loaded into the ROM and flash devices, in the same form; no step writes them (R108; log entry 9) -/
  rom : List Host.Cell
  /-- the parameters of R9; no step changes them -/
  plat : Platform
  /-- the levels of the interrupt inputs in the coming cycles, the next first (R520; the model's own) -/
  irqInputs : List IrqSample
  /-- how many free values have been drawn (the model's own) -/
  draws : Nat
  deriving DecidableEq, Repr

/-- The hart right after reset (R80, R570; log entries 1 to 5, 7, 8): every register 0, Machine mode, no reservation,
running, the pc at RESET_PC of the default platform; nothing listed in memory, so that every byte of it is free
(R572). -/
def State.reset : State where
  regs := Vector.replicate 31 0
  fregs := Vector.replicate 32 0
  pc := Platform.default.resetPc
  priv := .machine
  csr := CsrFile.zero
  resv := none
  halted := .running
  mem := []
  rom := []
  plat := Platform.default
  irqInputs := []
  draws := 0

/-- The reset event of R570 in any state: the hart's own state is set, memory, devices and inputs are not touched
(R572; log entry 28). -/
def State.hartReset (s : State) : State :=
  { State.reset with
    pc := s.plat.resetPc
    mem := s.mem
    rom := s.rom
    plat := s.plat
    irqInputs := s.irqInputs
    draws := s.draws }

end Sys2Proof.Machine
end

