-- ==== Sys2Proof/Machine/Operands.lean ====
section
/-! DEFINITION. Operand forms: extensions (R16), immediates (R174 to R180, R215), registers named by compressed
fields (R211). -/

namespace Sys2Proof.Machine

/-- `sext_N` of a value of N bits (R16). -/
def sext {n : Nat} (v : BitVec n) : Word := v.signExtend 64

/-- `zext_N` of a value of N bits (R16). -/
def zext {n : Nat} (v : BitVec n) : Word := v.setWidth 64

/-- The low 32 bits of a register (R261). -/
def low32 (v : Word) : BitVec 32 := v.extractLsb' 0 32

/-- `zext` of the low n bytes of a value (R103, R104). -/
def zextBytes (n : Nat) (v : Word) : Word := v &&& BitVec.ofNat 64 (2 ^ (8 * n) - 1)

/-- `sext` of the low n bytes of a value, n in 1, 2, 4, 8 (R16, R313 to R316). -/
def sextBytes (n : Nat) (v : Word) : Word :=
  match n with
  | 1 => sext (v.extractLsb' 0 8)
  | 2 => sext (v.extractLsb' 0 16)
  | 4 => sext (v.extractLsb' 0 32)
  | _ => v

/-- U-immediate: inst[31:12] at bits 31:12, sign-extended (R177). -/
def immU (imm : BitVec 20) : Word := sext (imm ++ 0#12)

/-- J-immediate: imm[20:1] with bit 0 clear, sign-extended (R178). -/
def immJ (imm : BitVec 20) : Word := sext (imm ++ 0#1)

/-- B-immediate: imm[12:1] with bit 0 clear, sign-extended (R176). -/
def immB (imm : BitVec 12) : Word := sext (imm ++ 0#1)

/-- I-immediate and S-immediate: 12 bits sign-extended (R174, R175). -/
def imm12 (imm : BitVec 12) : Word := sext imm

/-- C.ADDI4SPN: imm[9:2], zero-extended (R431). -/
def immSpn (imm : BitVec 8) : Word := zext (imm ++ 0#2)

/-- C.LW, C.SW: imm[6:2], zero-extended (R433). -/
def immCWord (imm : BitVec 5) : Word := zext (imm ++ 0#2)

/-- C.LD, C.SD: imm[7:3], zero-extended (R434). -/
def immCDouble (imm : BitVec 5) : Word := zext (imm ++ 0#3)

/-- The 6-bit immediate of quadrant 1, sign-extended (R440 to R443, R455). -/
def imm6 (imm : BitVec 6) : Word := sext imm

/-- C.ADDI16SP: imm[9:4], sign-extended (R451). -/
def imm16sp (imm : BitVec 6) : Word := sext (imm ++ 0#4)

/-- C.LUI: imm[17:12], sign-extended (R452). -/
def immCLui (imm : BitVec 6) : Word := sext (imm ++ 0#12)

/-- C.J: imm[11:1], sign-extended (R463). -/
def immCJ (imm : BitVec 11) : Word := sext (imm ++ 0#1)

/-- C.BEQZ, C.BNEZ: imm[8:1], sign-extended (R464). -/
def immCBranch (imm : BitVec 8) : Word := sext (imm ++ 0#1)

/-- C.LWSP, C.SWSP: imm[7:2], zero-extended (R472, R475). -/
def immSpWord (imm : BitVec 6) : Word := zext (imm ++ 0#2)

/-- C.LDSP, C.SDSP: imm[8:3], zero-extended (R473, R476). -/
def immSpDouble (imm : BitVec 6) : Word := zext (imm ++ 0#3)

/-- The register a 3-bit compressed field names: x8 to x15 (R211). -/
def creg (r : CRegIdx) : RegIdx := 1#2 ++ r

/-- x0, x1 and x2 where an instruction names them itself (R31). -/
def x0 : RegIdx := 0
def ra : RegIdx := 1
def sp : RegIdx := 2

/-- `npc - pc` (R33, R170): 4 for a 32-bit instruction, 2 for a compressed one. -/
def ilen4 : Word := 4
def ilen2 : Word := 2

end Sys2Proof.Machine
end

