-- ==== Sys2Proof/Machine/Arith.lean ====
section
/-! DEFINITION. The values of the integer instructions (R231 to R261 of spec/40_integer_alu.md, R330 to R343 of
spec/43_m_extension.md): exact integer results narrowed at the end where the rule computes in integers. -/

namespace Sys2Proof.Machine

/-- 1 or 0 in a 64-bit register (R261). -/
def flagWord (b : Bool) : Word := if b then 1 else 0

/-! ### 64-bit forms -/

def addVal (a b : Word) : Word := a + b
def subVal (a b : Word) : Word := a - b
def xorVal (a b : Word) : Word := a ^^^ b
def orVal (a b : Word) : Word := a ||| b
def andVal (a b : Word) : Word := a &&& b
/-- signed comparison (R234, R249) -/
def sltVal (a b : Word) : Word := flagWord (decide (a.toInt < b.toInt))
/-- unsigned comparison (R235, R250) -/
def sltuVal (a b : Word) : Word := flagWord (decide (a.toNat < b.toNat))
/-- shift amount masked to 6 bits (R261) -/
def sllVal (a b : Word) : Word := a <<< (b.extractLsb' 0 6).toNat
def srlVal (a b : Word) : Word := a >>> (b.extractLsb' 0 6).toNat
/-- arithmetic right shift sign-extends (R261) -/
def sraVal (a b : Word) : Word := a.sshiftRight (b.extractLsb' 0 6).toNat

/-! ### Word forms: the low 32 bits of the operands, the 32-bit result sign-extended (R261) -/

def addwVal (a b : Word) : Word := sext (low32 a + low32 b)
def subwVal (a b : Word) : Word := sext (low32 a - low32 b)
/-- shift amount masked to 5 bits (R261) -/
def sllwVal (a b : Word) : Word := sext (low32 a <<< (b.extractLsb' 0 5).toNat)
def srlwVal (a b : Word) : Word := sext (low32 a >>> (b.extractLsb' 0 5).toNat)
def srawVal (a b : Word) : Word := sext ((low32 a).sshiftRight (b.extractLsb' 0 5).toNat)

/-! ### Multiply (R331 to R335): the exact 128-bit product -/

/-- bits 127:64 of an exact product (R330) -/
def highHalf (p : Int) : Word := (BitVec.ofInt 128 p).extractLsb' 64 64

def mulVal (a b : Word) : Word := a * b
def mulhVal (a b : Word) : Word := highHalf (a.toInt * b.toInt)
/-- rs1 signed, rs2 unsigned (R333) -/
def mulhsuVal (a b : Word) : Word := highHalf (a.toInt * (b.toNat : Int))
def mulhuVal (a b : Word) : Word := highHalf ((a.toNat : Int) * (b.toNat : Int))
def mulwVal (a b : Word) : Word := sext (low32 a * low32 b)

/-! ### Divide and remainder (R330, R336 to R343): division by zero and overflow have defined results -/

/-- The quotient of R336, R340 at N bits: all ones for divisor 0, the dividend for the most negative dividend by -1,
otherwise rounded toward zero. -/
def divSigned {n : Nat} (a b : BitVec n) : BitVec n :=
  if b = 0 then BitVec.allOnes n
  else if a = BitVec.intMin n ∧ b = BitVec.allOnes n then BitVec.intMin n
  else BitVec.ofInt n (a.toInt.tdiv b.toInt)

/-- R337, R341. -/
def divUnsigned {n : Nat} (a b : BitVec n) : BitVec n :=
  if b = 0 then BitVec.allOnes n else BitVec.ofNat n (a.toNat / b.toNat)

/-- The remainder of R338, R342: the dividend for divisor 0, 0 on overflow, otherwise `a - b * trunc(a / b)`. -/
def remSigned {n : Nat} (a b : BitVec n) : BitVec n :=
  if b = 0 then a
  else if a = BitVec.intMin n ∧ b = BitVec.allOnes n then 0
  else BitVec.ofInt n (a.toInt - b.toInt * a.toInt.tdiv b.toInt)

/-- R339, R343. -/
def remUnsigned {n : Nat} (a b : BitVec n) : BitVec n :=
  if b = 0 then a else BitVec.ofNat n (a.toNat % b.toNat)

def divVal (a b : Word) : Word := divSigned a b
def divuVal (a b : Word) : Word := divUnsigned a b
def remVal (a b : Word) : Word := remSigned a b
def remuVal (a b : Word) : Word := remUnsigned a b
def divwVal (a b : Word) : Word := sext (divSigned (low32 a) (low32 b))
def divuwVal (a b : Word) : Word := sext (divUnsigned (low32 a) (low32 b))
def remwVal (a b : Word) : Word := sext (remSigned (low32 a) (low32 b))
def remuwVal (a b : Word) : Word := sext (remUnsigned (low32 a) (low32 b))

/-! ### Atomic functions (R350) -/

/-- An n-byte value read as a signed integer. -/
def signedBytes (n : Nat) (v : Word) : Int := (sextBytes n v).toInt

/-- An n-byte value read as an unsigned integer. -/
def unsignedBytes (n : Nat) (v : Word) : Nat := (zextBytes n v).toNat

/-- `f(old, v)` of R350 on n-byte operands, before the truncation to n bytes; the tags NONE, LR and SC store `v`
(R104, R109). -/
def rmwApply (tag : RmwTag) (n : Nat) (old v : Word) : Word :=
  match tag with
  | .none => v
  | .lr => v
  | .sc => v
  | .swap => v
  | .add => old + v
  | .xor => old ^^^ v
  | .and => old &&& v
  | .or => old ||| v
  | .min => if signedBytes n old < signedBytes n v then old else v
  | .max => if signedBytes n v < signedBytes n old then old else v
  | .minu => if unsignedBytes n old < unsignedBytes n v then old else v
  | .maxu => if unsignedBytes n v < unsignedBytes n old then old else v

end Sys2Proof.Machine
end

