-- ==== Sys2Proof/Machine/Csrs.lean ====
section
/-! DEFINITION. The CSR numbers of the table of R50 (spec/10_state.md), the six classes, and the slot of each stored
CSR. The numbers and the set are the spec's decision D17 (log entry 20). -/

namespace Sys2Proof.Machine

/-- The stored CSRs. -/
inductive CsrName where
  | sstatus
  | sedeleg
  | sideleg
  | sie
  | stvec
  | scounteren
  | sscratch
  | sepc
  | scause
  | stval
  | sip
  | satp
  | mstatus
  | misa
  | medeleg
  | mideleg
  | mie
  | mtvec
  | mcounteren
  | mscratch
  | mepc
  | mcause
  | mtval
  | mip
  | mvendorid
  | marchid
  | mimpid
  | mhartid
  deriving DecidableEq, Repr

/-- The number of a stored CSR (R50). -/
def CsrName.number : CsrName → CsrNum
  | .sstatus => 0x100
  | .sedeleg => 0x102
  | .sideleg => 0x103
  | .sie => 0x104
  | .stvec => 0x105
  | .scounteren => 0x106
  | .sscratch => 0x140
  | .sepc => 0x141
  | .scause => 0x142
  | .stval => 0x143
  | .sip => 0x144
  | .satp => 0x180
  | .mstatus => 0x300
  | .misa => 0x301
  | .medeleg => 0x302
  | .mideleg => 0x303
  | .mie => 0x304
  | .mtvec => 0x305
  | .mcounteren => 0x306
  | .mscratch => 0x340
  | .mepc => 0x341
  | .mcause => 0x342
  | .mtval => 0x343
  | .mip => 0x344
  | .mvendorid => 0xF11
  | .marchid => 0xF12
  | .mimpid => 0xF13
  | .mhartid => 0xF14

/-- The stored CSR with a number. -/
def CsrName.ofNumber (a : CsrNum) : Option CsrName :=
  match a with
  | 0x100 => some .sstatus
  | 0x102 => some .sedeleg
  | 0x103 => some .sideleg
  | 0x104 => some .sie
  | 0x105 => some .stvec
  | 0x106 => some .scounteren
  | 0x140 => some .sscratch
  | 0x141 => some .sepc
  | 0x142 => some .scause
  | 0x143 => some .stval
  | 0x144 => some .sip
  | 0x180 => some .satp
  | 0x300 => some .mstatus
  | 0x301 => some .misa
  | 0x302 => some .medeleg
  | 0x303 => some .mideleg
  | 0x304 => some .mie
  | 0x305 => some .mtvec
  | 0x306 => some .mcounteren
  | 0x340 => some .mscratch
  | 0x341 => some .mepc
  | 0x342 => some .mcause
  | 0x343 => some .mtval
  | 0x344 => some .mip
  | 0xF11 => some .mvendorid
  | 0xF12 => some .marchid
  | 0xF13 => some .mimpid
  | 0xF14 => some .mhartid
  | _ => none

/-- The value a slot holds. -/
def CsrFile.get (c : CsrFile) : CsrName → Word
  | .sstatus => c.sstatus
  | .sedeleg => c.sedeleg
  | .sideleg => c.sideleg
  | .sie => c.sie
  | .stvec => c.stvec
  | .scounteren => c.scounteren
  | .sscratch => c.sscratch
  | .sepc => c.sepc
  | .scause => c.scause
  | .stval => c.stval
  | .sip => c.sip
  | .satp => c.satp
  | .mstatus => c.mstatus
  | .misa => c.misa
  | .medeleg => c.medeleg
  | .mideleg => c.mideleg
  | .mie => c.mie
  | .mtvec => c.mtvec
  | .mcounteren => c.mcounteren
  | .mscratch => c.mscratch
  | .mepc => c.mepc
  | .mcause => c.mcause
  | .mtval => c.mtval
  | .mip => c.mip
  | .mvendorid => c.mvendorid
  | .marchid => c.marchid
  | .mimpid => c.mimpid
  | .mhartid => c.mhartid

/-- Replacing all 64 bits of a slot (R74). -/
def CsrFile.set (c : CsrFile) (n : CsrName) (v : Word) : CsrFile :=
  match n with
  | .sstatus => { c with sstatus := v }
  | .sedeleg => { c with sedeleg := v }
  | .sideleg => { c with sideleg := v }
  | .sie => { c with sie := v }
  | .stvec => { c with stvec := v }
  | .scounteren => { c with scounteren := v }
  | .sscratch => { c with sscratch := v }
  | .sepc => { c with sepc := v }
  | .scause => { c with scause := v }
  | .stval => { c with stval := v }
  | .sip => { c with sip := v }
  | .satp => { c with satp := v }
  | .mstatus => { c with mstatus := v }
  | .misa => { c with misa := v }
  | .medeleg => { c with medeleg := v }
  | .mideleg => { c with mideleg := v }
  | .mie => { c with mie := v }
  | .mtvec => { c with mtvec := v }
  | .mcounteren => { c with mcounteren := v }
  | .mscratch => { c with mscratch := v }
  | .mepc => { c with mepc := v }
  | .mcause => { c with mcause := v }
  | .mtval => { c with mtval := v }
  | .mip => { c with mip := v }
  | .mvendorid => { c with mvendorid := v }
  | .marchid => { c with marchid := v }
  | .mimpid => { c with mimpid := v }
  | .mhartid => { c with mhartid := v }

/-! ### The whole array (R8, R50) -/

/-- A slot of the sparse list: 0 where it is not listed. -/
def slotRead : List (CsrNum × Word) → CsrNum → Word
  | [], _ => 0
  | (b, w) :: rest, a => if a = b then w else if a < b then 0 else slotRead rest a

/-- The sparse list with a slot replaced; a slot that becomes 0 is not listed. -/
def slotWrite (l : List (CsrNum × Word)) (a : CsrNum) (v : Word) : List (CsrNum × Word) :=
  match l with
  | [] => if v = 0 then [] else [(a, v)]
  | (b, w) :: rest =>
    if a < b then (if v = 0 then (b, w) :: rest else (a, v) :: (b, w) :: rest)
    else if a = b then (if v = 0 then rest else (a, v) :: rest)
    else (b, w) :: slotWrite rest a v

/-- The canonical form of the sparse list above the number `lo`: numbers rise strictly from `lo` on, none is that of a
register with a name, no slot that is 0 is listed. -/
def slotsWf (lo : Nat) : List (CsrNum × Word) → Bool
  | [] => true
  | (b, w) :: rest =>
    decide (lo ≤ b.toNat) && decide (CsrName.ofNumber b = none) && decide (w ≠ 0) && slotsWf (b.toNat + 1) rest

/-- The canonical form of the CSR array: equal arrays are equal data. -/
def CsrFile.wf (c : CsrFile) : Bool := slotsWf 0 c.others

/-- `CSR[a]`: the raw slot of any of the 4096 numbers, with no check (R17, R50). -/
def CsrFile.slot (c : CsrFile) (a : CsrNum) : Word :=
  match CsrName.ofNumber a with
  | some n => c.get n
  | none => slotRead c.others a

/-- `CSR[a] <- v`: all 64 bits of the raw slot of any of the 4096 numbers, with no check (R17, R50). -/
def CsrFile.setSlot (c : CsrFile) (a : CsrNum) (v : Word) : CsrFile :=
  match CsrName.ofNumber a with
  | some n => c.set n v
  | none => { c with others := slotWrite c.others a v }

/-- The computed counters (R66). -/
def counterOfNumber (a : CsrNum) : Option CounterId :=
  match a with
  | 0xC00 => some .cycle
  | 0xC01 => some .time
  | 0xC02 => some .instret
  | _ => none

/-- The floating-point CSRs fflags, frm, fcsr (R68). -/
def isFloatCsr (a : CsrNum) : Bool := a == 1 || a == 2 || a == 3

/-- The unsupported performance counters and event selectors (R67). -/
def isPerfCsr (a : CsrNum) : Bool :=
  (decide (0xC03 ≤ a) && decide (a ≤ 0xC1F)) || (decide (0xB03 ≤ a) && decide (a ≤ 0xB1F)) ||
    (decide (0x323 ≤ a) && decide (a ≤ 0x33F))

/-- The six classes of R50. -/
inductive CsrClass where
  | stored (n : CsrName)
  | computed (c : CounterId)
  | unsupported
  | fatal
  | refused
  | unrecognized
  deriving DecidableEq, Repr

/-- The class of a number, the tests of R70 in their order: refused, then CSR_FATAL_SET, then the table. -/
def csrClass (fatalSet : List CsrNum) (a : CsrNum) : CsrClass :=
  if isFloatCsr a then .refused
  else if fatalSet.contains a then .fatal
  else
    match CsrName.ofNumber a with
    | some n => .stored n
    | none =>
      match counterOfNumber a with
      | some c => .computed c
      | none => if isPerfCsr a then .unsupported else .unrecognized

/-- Bits 9:8: the lowest privilege that may access the number (R72). -/
def csrPrivBits (a : CsrNum) : BitVec 2 := a.extractLsb' 8 2

/-- Bits 11:10 = 11: the number is read-only (R73). -/
def csrReadOnly (a : CsrNum) : Bool := a.extractLsb' 10 2 == 3

/-- The operations of a CSR update (R71); `other` is an operation code outside the three. -/
inductive CsrOp where
  | write
  | set
  | clear
  | other (code : Nat)
  deriving DecidableEq, Repr

/-- Whether the operation is one of the three of R71. -/
def CsrOp.valid : CsrOp → Bool
  | .write => true
  | .set => true
  | .clear => true
  | .other _ => false

/-- The new value of R71. -/
def CsrOp.apply (op : CsrOp) (old data : Word) : Word :=
  match op with
  | .write => data
  | .set => old ||| data
  | .clear => old &&& ~~~data
  | .other _ => old

end Sys2Proof.Machine
end

