-- ==== Sys2Proof/Machine/Flags.lean ====
section
/-! DEFINITION. The fields of the status, enable, pending and translation registers that the hardware reads or writes
(R51 to R55, R61 of spec/10_state.md). The hart has no arithmetic flags: no instruction computes one (R38). -/

namespace Sys2Proof.Machine

/-- The 2-bit code of a privilege level (R37). -/
def Priv.code : Priv → BitVec 2
  | .user => 0
  | .supervisor => 1
  | .machine => 3

/-- The level with a 2-bit code; the code 2 is no level (R37). -/
def Priv.ofCode (c : BitVec 2) : Option Priv :=
  match c with
  | 0 => some .user
  | 1 => some .supervisor
  | 3 => some .machine
  | _ => none

/-- Setting or clearing one bit. -/
def setBit (w : Word) (i : Nat) (b : Bool) : Word :=
  if b then w ||| (1#64 <<< i) else w &&& ~~~(1#64 <<< i)

/-- Bit c of a register indexed by cause code (R53 to R55). -/
def codeBit (w : Word) (c : BitVec 6) : Bool := w.getLsbD c.toNat

/-! ### sstatus (R52) -/

/-- `sstatus.SIE`, bit 1. -/
def sstatusSIE (w : Word) : Bool := w.getLsbD 1
/-- `sstatus.SPIE`, bit 5. -/
def sstatusSPIE (w : Word) : Bool := w.getLsbD 5
/-- `sstatus.SPP`, bit 8: 1 = Supervisor, 0 = User. -/
def sstatusSPP (w : Word) : Bool := w.getLsbD 8
def setSIE (w : Word) (b : Bool) : Word := setBit w 1 b
def setSPIE (w : Word) (b : Bool) : Word := setBit w 5 b
def setSPP (w : Word) (b : Bool) : Word := setBit w 8 b

/-! ### mstatus (R51) -/

/-- `mstatus.MIE`, bit 3. -/
def mstatusMIE (w : Word) : Bool := w.getLsbD 3
/-- `mstatus.MPIE`, bit 7. -/
def mstatusMPIE (w : Word) : Bool := w.getLsbD 7
/-- `mstatus.MPP`, bits 12:11. -/
def mstatusMPP (w : Word) : BitVec 2 := w.extractLsb' 11 2
def setMIE (w : Word) (b : Bool) : Word := setBit w 3 b
def setMPIE (w : Word) (b : Bool) : Word := setBit w 7 b
def setMPP (w : Word) (p : BitVec 2) : Word := setBit (setBit w 11 (p.getLsbD 0)) 12 (p.getLsbD 1)

/-! ### satp (R61) -/

/-- `satp.MODE`, bits 63:60: 0 turns translation off. -/
def satpMode (w : Word) : BitVec 4 := w.extractLsb' 60 4
/-- `satp.PPN`, bits 43:0. -/
def satpPpn (w : Word) : BitVec 44 := w.extractLsb' 0 44

end Sys2Proof.Machine
end

