-- ==== Sys2Proof/Machine/Memory.lean ====
section
/-! DEFINITION. Memory as a sparse list of the bytes written or loaded so far, in one canonical form (R76, R108), over an
initial content that is free (R572); and multi-byte values in it, little-endian (R110). -/

namespace Sys2Proof.Machine

/-- The bytes of a set of devices. -/
abbrev Memory := List Host.Cell

/-- What a byte that nothing has written reads as: a free value of its own for each key, since the spec states no
content of RAM that no image covers and forbids to assume zero (R572, U16, N8; log entry 4). -/
def Memory.blank (k : Nat) : Byte := Config.initialByte k

/-- The canonical form above the address `lo`: addresses rise strictly from `lo` on. -/
def Memory.wfFrom (lo : Nat) : Memory → Bool
  | [] => true
  | (a, _) :: rest => decide (lo ≤ a) && Memory.wfFrom (a + 1) rest

/-- The canonical form: memories with the same bytes at the same written addresses are equal lists. An address that is
not listed holds no value yet, so no entry can repeat what it reads as. -/
def Memory.wf (m : Memory) : Bool := m.wfFrom 0

/-- The byte written or loaded at an address; none where nothing was. -/
def Memory.find : Memory → Nat → Option Byte
  | [], _ => none
  | (a, b) :: rest, k => if k = a then some b else if k < a then none else Memory.find rest k

/-- The byte at an address: the one written or loaded there, else the initial one. -/
def Memory.read (m : Memory) (k : Nat) : Byte :=
  match m.find k with
  | some b => b
  | none => Memory.blank k

/-- Writing a byte. -/
def Memory.write (m : Memory) (k : Nat) (b : Byte) : Memory :=
  match m with
  | [] => [(k, b)]
  | (a, c) :: rest =>
    if k < a then (k, b) :: (a, c) :: rest
    else if k = a then (k, b) :: rest
    else (a, c) :: Memory.write rest k b

/-- Writing a list of bytes, the first first. -/
def Memory.writeAll (m : Memory) : List Host.Cell → Memory
  | [] => m
  | (k, b) :: rest => Memory.writeAll (m.write k b) rest

/-- The n-byte value at `k`, little-endian, zero-extended to 64 bits (R103, R110). -/
def Memory.readLE (m : Memory) (k : Nat) : Nat → Word
  | 0 => 0
  | n + 1 => (m.read k).setWidth 64 ||| (m.readLE (k + 1) n) <<< 8

/-- Storing the low n bytes of a value at `k`, little-endian (R104, R110). -/
def Memory.writeLE (m : Memory) (k : Nat) : Nat → Word → Memory
  | 0, _ => m
  | n + 1, v => (m.write k (v.setWidth 8)).writeLE (k + 1) n (v >>> 8)

end Sys2Proof.Machine
end

