-- ==== Sys2Proof/Machine/Ops.lean ====
section
/-! DEFINITION. The named operations every meaning is written over: registers, the physical memory interface
(spec/20_memory.md R102 to R110), Sv39 translation (R120 to R132), data accesses (spec/42_load_store.md R310, R311,
spec/44_a_extension.md R350, R351), the CSR operations (spec/10_state.md R70 to R75), trap entry, trap return and the
interrupt check (spec/60_exceptions.md). -/

namespace Sys2Proof.Machine

/-! ### Registers and the pc -/

/-- `x[i]` (R17): 0 for x0 (R30). -/
def State.getX (s : State) (i : RegIdx) : Word :=
  if i = 0 then 0 else s.regs[i.toNat - 1]'(by have := i.isLt; omega)

/-- `x[i] <- v` (R17): discarded for x0 (R30). -/
def State.setX (s : State) (i : RegIdx) (v : Word) : State :=
  if i = 0 then s else { s with regs := s.regs.set (i.toNat - 1) v (by have := i.isLt; omega) }

/-- `pc <- t` (R17). -/
def State.setPc (s : State) (t : Word) : State := { s with pc := t }

/-- `pc <- npc`, with `npc = pc + ilen` (R33, R34). -/
def State.advance (s : State) (ilen : Word) : State := s.setPc (s.pc + ilen)

/-- `CSR[name] <- v`, unchecked (R17). -/
def State.setCsr (s : State) (n : CsrName) (v : Word) : State := { s with csr := s.csr.set n v }

/-- The reservation becomes `r` (R39). -/
def State.setResv (s : State) (r : Option Reservation) : State := { s with resv := r }

/-- One more free value has been drawn (the model's own, log entry 8). -/
def State.drew (s : State) : State := { s with draws := s.draws + 1 }

/-! ### Results -/

/-- The exceptions of the table of R510. -/
inductive Exc where
  | instrMisaligned
  | illegalInstruction
  | breakpoint
  | loadMisaligned
  | storeMisaligned
  | ecallUser
  | ecallSupervisor
  | ecallMachine
  | instrPageFault
  | loadPageFault
  | storePageFault
  deriving DecidableEq, Repr

/-- The cause code of an exception (R510); bit 63 is 0. -/
def Exc.cause : Exc → Word
  | .instrMisaligned => 0
  | .illegalInstruction => 2
  | .breakpoint => 3
  | .loadMisaligned => 4
  | .storeMisaligned => 6
  | .ecallUser => 8
  | .ecallSupervisor => 9
  | .ecallMachine => 11
  | .instrPageFault => 12
  | .loadPageFault => 13
  | .storePageFault => 15

/-- What an operation ends in: a value, an exception with its trap value (`raise E(t)` of R19), or one of the two
stops of R13, R14. The state goes through it, because a device may have acted on an access (R108). -/
inductive Res (α : Type) where
  | done (v : α) (s : State)
  | raise (e : Exc) (tval : Word) (s : State)
  | fatal (r : Fault)
  | refuse (r : Refusal)
  deriving DecidableEq, Repr

/-- The next operation runs only when the first one gave a value (R19). -/
def Res.bind {α β : Type} (x : Res α) (f : α → State → Res β) : Res β :=
  match x with
  | .done v s => f v s
  | .raise e t s => .raise e t s
  | .fatal r => .fatal r
  | .refuse r => .refuse r

/-! ### The physical memory interface -/

/-- R105. -/
def validWidth (n : Nat) : Bool := n == 1 || n == 2 || n == 4 || n == 8

/-- One access to a device whose behaviour the spec leaves open: a free value is returned and free bytes of RAM are
written as its side effect (R108, R150, U15; log entry 9). -/
def deviceAccess (a : DeviceAccess) (s : State) : Res Word :=
  .done (zextBytes a.size (Config.deviceValue a s.draws))
    { s with mem := Memory.writeAll s.mem (Config.deviceEffects a s.draws) }.drew

/-- `PhysRead(pa, n, tag)` (R103): the n-byte value, zero-extended. -/
def physRead (pa : Word) (n : Nat) (tag : RmwTag) (s : State) : Res Word :=
  if validWidth n then
    match s.plat.physMap.route pa with
    | (.absent, _) => .fatal (.noDevice pa n .read)
    | (.memory base, off) => .done (Memory.readLE s.mem (base + off.toNat) n) s
    | (.rom base, off) => .done (Memory.readLE s.rom (base + off.toNat) n) s
    | (.other h, off) => deviceAccess ⟨.other h, .read, off, n, 0, tag⟩ s
  else .fatal .badWidth

/-- `PhysWrite(pa, n, v, tag)` (R104): the previous n-byte value; a memory device stores `f(old, v)` (R109). What a ROM
does with a write is outside the core (R108; log entry 9). -/
def physWrite (pa : Word) (n : Nat) (v : Word) (tag : RmwTag) (s : State) : Res Word :=
  if validWidth n then
    match s.plat.physMap.route pa with
    | (.absent, _) => .fatal (.noDevice pa n .write)
    | (.memory base, off) =>
      let old := Memory.readLE s.mem (base + off.toNat) n
      .done old { s with mem := Memory.writeLE s.mem (base + off.toNat) n (rmwApply tag n old v) }
    | (.rom base, off) => deviceAccess ⟨.rom base, .write, off, n, zextBytes n v, tag⟩ s
    | (.other h, off) => deviceAccess ⟨.other h, .write, off, n, zextBytes n v, tag⟩ s
  else .fatal .badWidth

/-! ### Sv39 translation -/

/-- The access types of `Translate` (R121). -/
inductive AccessType where
  | fetch
  | load
  | store
  deriving DecidableEq, Repr

/-- The page-fault exception of an access type (R129). -/
def AccessType.pageFault : AccessType → Exc
  | .fetch => .instrPageFault
  | .load => .loadPageFault
  | .store => .storePageFault

/-- The misalignment exception of a data access (R112) or a fetch (R141). -/
def AccessType.misaligned : AccessType → Exc
  | .fetch => .instrMisaligned
  | .load => .loadMisaligned
  | .store => .storeMisaligned

/-- V, R, W, X of a page-table entry (R122). -/
def pteV (pte : Word) : Bool := pte.getLsbD 0
def pteR (pte : Word) : Bool := pte.getLsbD 1
def pteW (pte : Word) : Bool := pte.getLsbD 2
def pteX (pte : Word) : Bool := pte.getLsbD 3
/-- PPN, bits 53:10 (R122). -/
def ptePpn (pte : Word) : BitVec 44 := pte.extractLsb' 10 44

/-- Invalid or ill-formed: V = 0, or W = 1 with R = 0 (R125). -/
def pteBad (pte : Word) : Bool := !pteV pte || (pteW pte && !pteR pte)

/-- Leaf: R = 1 or X = 1 (R126). -/
def pteLeaf (pte : Word) : Bool := pteR pte || pteX pte

/-- The physical address of the page table with a page number (R121, R126). -/
def tableBase (ppn : BitVec 44) : Word := zext (ppn ++ 0#12)

/-- VPN[level] of a virtual address (R123). -/
def vpn (va : Word) (level : Nat) : BitVec 9 := va.extractLsb' (12 + 9 * level) 9

/-- The physical address of the entry a walk reads at a level (R124). -/
def pteAddress (base va : Word) (level : Nat) : Word := base + zext (vpn va level) * 8

/-- The physical address of a leaf found at a level: the superpage levels keep only their own part of the page number
(R127). -/
def leafAddress (pte va : Word) (level : Nat) : Word :=
  match level with
  | 0 => zext (pte.extractLsb' 10 44 ++ va.extractLsb' 0 12)
  | 1 => zext (pte.extractLsb' 19 35 ++ va.extractLsb' 0 21)
  | _ => zext (pte.extractLsb' 28 26 ++ va.extractLsb' 0 30)

/-- The page-table walk of R121 from the level `levels - 1` down: the physical address, or none for a page fault. The
entries are read without translation (R106, R124). -/
def walk (va : Word) : Nat → Word → State → Res (Option Word)
  | 0, _, s => .done none s
  | level + 1, base, s =>
    (physRead (pteAddress base va level) 8 .none s).bind fun pte s =>
      if pteBad pte then .done none s
      else if pteLeaf pte then .done (some (leafAddress pte va level)) s
      else walk va level (tableBase (ptePpn pte)) s

/-- Whether `Translate` walks: not in Machine mode, and not with `satp.MODE` = 0 (R120). -/
def State.translating (s : State) : Bool := decide (s.priv ≠ .machine) && decide (satpMode s.csr.satp ≠ 0)

/-- `Translate(va, acc)` with the exception its caller raises (R121, R129). -/
def translateVa (acc : AccessType) (va : Word) (s : State) : Res Word :=
  if s.translating then
    (walk va 3 (tableBase (satpPpn s.csr.satp)) s).bind fun r s =>
      match r with
      | some pa => .done pa s
      | none => .raise acc.pageFault va s
  else .done va s

/-! ### Data accesses -/

/-- `va mod n = 0` (R112). -/
def aligned (va : Word) (n : Nat) : Bool := va.toNat % n == 0

/-- The alignment check and the translation that open every data access, in that order (R310, R311, R350, R352,
R354). -/
def dataAddress (acc : AccessType) (va : Word) (n : Nat) (s : State) : Res Word :=
  if aligned va n then translateVa acc va s else .raise acc.misaligned va s

/-- `MemRead(va, n)` (R310). -/
def memRead (va : Word) (n : Nat) (s : State) : Res Word :=
  (dataAddress .load va n s).bind fun pa s => physRead pa n .none s

/-- `MemWrite(va, n, v)` (R311): the returned previous value is ignored. -/
def memWrite (va : Word) (n : Nat) (v : Word) (s : State) : Res Unit :=
  (dataAddress .store va n s).bind fun pa s => (physWrite pa n v .none s).bind fun _ s => .done () s

/-- `MemAmo(va, n, v, f)` (R350): the previous value. -/
def memAmo (va : Word) (n : Nat) (v : Word) (tag : RmwTag) (s : State) : Res Word :=
  (dataAddress .store va n s).bind fun pa s => physWrite pa n v tag s

/-- The number of bytes of a reservation's width (R39). -/
def AmoWidth.bytes : AmoWidth → Nat
  | .word => 4
  | .double => 8

/-- The memory part of LR (R352, R353): the value read, with the reservation set. -/
def loadReserved (va : Word) (w : AmoWidth) (s : State) : Res Word :=
  (dataAddress .load va w.bytes s).bind fun pa s =>
    (physRead pa w.bytes .lr s).bind fun v s => .done v (s.setResv (some ⟨pa, w⟩))

/-- The memory part of SC (R354, R355): 0 on success, 1 on failure; the reservation is cleared either way. -/
def storeConditional (va : Word) (w : AmoWidth) (v : Word) (s : State) : Res Word :=
  (dataAddress .store va w.bytes s).bind fun pa s =>
    if s.resv = some ⟨pa, w⟩ then
      (physWrite pa w.bytes v .sc s).bind fun _ s => .done 0 (s.setResv none)
    else .done 1 (s.setResv none)

/-! ### CSR operations -/

/-- The exception of every CSR access that is not allowed: Illegal instruction with trap value 0 (R390). -/
def illegal {α : Type} (s : State) : Res α := .raise .illegalInstruction 0 s

/-- `CsrRead(a)`, the tests in the order of R70; a counter is a free value (R75). -/
def csrRead (a : CsrNum) (s : State) : Res Word :=
  match csrClass s.plat.csrFatalSet a with
  | .refused => .refuse .floatingPoint
  | .fatal => .fatal (.csrPanic a)
  | .unsupported => illegal s
  | .unrecognized => illegal s
  | .computed c =>
    if s.priv.code < csrPrivBits a then illegal s else .done (Config.counterRead c s.draws) s.drew
  | .stored n => if s.priv.code < csrPrivBits a then illegal s else .done (s.csr.get n) s

/-- `CSR[a] <- v` (R71); past the checks of R70 and the read-only test, only a stored number gets here. -/
def csrStore (a : CsrNum) (v : Word) (s : State) : State := { s with csr := s.csr.setSlot a v }

/-- `CsrUpdate(a, data, op, wr)` (R71): the old value is read first and returned; the read-only test comes after the
read and only when the instruction writes. The operation is tested before anything else (log entry 14). -/
def csrUpdate (a : CsrNum) (data : Word) (op : CsrOp) (wr : Bool) (s : State) : Res Word :=
  if op.valid then
    (csrRead a s).bind fun old s =>
      if wr then
        if csrReadOnly a then illegal s else .done old (csrStore a (op.apply old data) s)
      else .done old s
  else .fatal .badCsrOp

/-! ### Taking a trap -/

/-- Bit 63 of a cause: an interrupt (R59). -/
def causeIsInterrupt (cause : Word) : Bool := cause.getLsbD 63

/-- The delegation bit of a cause: `cause[5:0]` in mideleg or medeleg (R530, R532). -/
def delegated (c : CsrFile) (cause : Word) : Bool :=
  if causeIsInterrupt cause then codeBit c.mideleg (cause.extractLsb' 0 6) else codeBit c.medeleg (cause.extractLsb' 0 6)

/-- Whether a trap with this cause lands in Supervisor mode (R530, R532). -/
def State.trapsToSupervisor (s : State) (cause : Word) : Bool :=
  delegated s.csr cause && decide (s.priv ≠ .machine)

/-- The Supervisor half of R530. -/
def trapToSupervisor (epc cause tval : Word) (s : State) : State :=
  let st := s.csr.sstatus
  { s with
    csr := { s.csr with
      sstatus := setSIE (setSPIE (setSPP st (decide (s.priv = .supervisor))) (sstatusSIE st)) false
      scause := cause
      stval := tval
      sepc := epc }
    priv := .supervisor
    pc := s.csr.stvec }

/-- The Machine half of R530. -/
def trapToMachine (epc cause tval : Word) (s : State) : State :=
  let st := s.csr.mstatus
  { s with
    csr := { s.csr with
      mstatus := setMIE (setMPIE (setMPP st s.priv.code) (mstatusMIE st)) false
      mcause := cause
      mtval := tval
      mepc := epc }
    priv := .machine
    pc := s.csr.mtvec }

/-- `pc <- TrapEnter(epc, cause, tval)` (R530): one procedure for exceptions and interrupts. -/
def trapEnter (epc cause tval : Word) (s : State) : State :=
  if s.trapsToSupervisor cause then trapToSupervisor epc cause tval s else trapToMachine epc cause tval s

/-- The end of a cycle (R503 steps 4 and 5): the next state, the trap entry of a raised exception with the pc of the
instruction as saved pc (R505), or a stop. -/
def Res.finish (x : Res Unit) : Host.Outcome State Fault Refusal :=
  match x with
  | .done _ s => .next s
  | .raise e tval s => .next (trapEnter s.pc e.cause tval s)
  | .fatal r => .fault r
  | .refuse r => .refused r

/-! ### Returning from a trap -/

/-- SRET past its mode check (R413): SPIE and SPP keep their values. -/
def returnFromSupervisor (s : State) : State :=
  let st := s.csr.sstatus
  { s with
    csr := { s.csr with sstatus := setSIE st (sstatusSPIE st) }
    priv := if sstatusSPP st then .supervisor else .user
    pc := s.csr.sepc }

/-- MRET past its checks, to the level `p` (R414): MPIE, MPP and MPRV keep their values. -/
def returnFromMachine (p : Priv) (s : State) : State :=
  let st := s.csr.mstatus
  { s with
    csr := { s.csr with mstatus := setMIE st (mstatusMPIE st) }
    priv := p
    pc := s.csr.mepc }

/-- Trap exit (R412 to R414, R540). -/
def trapExit (op : TrapExitOp) (s : State) : Res Unit :=
  match op with
  | .uret => .fatal (.badTrapExit .uret)
  | .sret => if s.priv = .user then illegal s else .done () (returnFromSupervisor s)
  | .mret =>
    if s.priv = .machine then
      match Priv.ofCode (mstatusMPP s.csr.mstatus) with
      | some p => .done () (returnFromMachine p s)
      | none => .refuse .badPrivilegeValue
    else illegal s

/-! ### Interrupts -/

/-- Whether an interrupt with code c would land in Supervisor mode: `toS` of R521. -/
def State.irqToSupervisor (s : State) (c : BitVec 6) : Bool :=
  codeBit s.csr.mideleg c && decide (s.priv ≠ .machine)

/-- The enable rule of R521. -/
def State.irqEnabled (s : State) (c : BitVec 6) : Bool :=
  if s.irqToSupervisor c then sstatusSIE s.csr.sstatus && codeBit s.csr.sie c
  else mstatusMIE s.csr.mstatus && codeBit s.csr.mie c

/-- `{1'b1, 63'(c)}` (R520). -/
def irqCause (c : BitVec 6) : Word := 1#1 ++ c.setWidth 63

/-- Taking the interrupt with code c (R522): the pending bit of the target mode, then trap entry with trap value 0. -/
def takeInterrupt (c : BitVec 6) (s : State) : State :=
  trapEnter s.pc (irqCause c) 0
    (if s.irqToSupervisor c then s.setCsr .sip (setBit s.csr.sip c.toNat true)
     else s.setCsr .mip (setBit s.csr.mip c.toNat true))

/-- Sampling both inputs, once per cycle (R520): the next entry of `irqInputs`, or two free values (log entry 7). -/
def pollInputs (s : State) : IrqSample × State :=
  match s.irqInputs with
  | i :: rest => (i, { s with irqInputs := rest })
  | [] => (⟨Config.pollExternal s.draws, Config.pollTimer s.draws⟩, s.drew)

/-- `HandleInterrupt(pc)` (R522): external first, at most one. (`enabled` stands before the level in each test, so that
a disabled source is passed over whatever its level is.) -/
def handleInterrupt (s : State) : State :=
  let i := (pollInputs s).1
  let t := (pollInputs s).2
  if t.irqEnabled t.plat.extIrqCode && i.external then takeInterrupt t.plat.extIrqCode t
  else if t.irqEnabled t.plat.timerIrqCode && i.timer then takeInterrupt t.plat.timerIrqCode t
  else t

/-! ### The shapes of an instruction -/

/-- An instruction that only goes on: `pc <- npc`. -/
def nop (ilen : Word) (s : State) : Host.Outcome State Fault Refusal := .next (s.advance ilen)

/-- `x[rd] <- v; pc <- npc` (R230). -/
def writeReg (ilen : Word) (rd : RegIdx) (v : Word) (s : State) : Host.Outcome State Fault Refusal :=
  .next ((s.setX rd v).advance ilen)

/-- `x[rd] <- f(x[rs1], imm); pc <- npc`. -/
def regImm (ilen : Word) (f : Word → Word → Word) (rd rs1 : RegIdx) (imm : Word) (s : State) :
    Host.Outcome State Fault Refusal :=
  writeReg ilen rd (f (s.getX rs1) imm) s

/-- `x[rd] <- f(x[rs1], x[rs2]); pc <- npc`. -/
def regReg (ilen : Word) (f : Word → Word → Word) (rd rs1 rs2 : RegIdx) (s : State) :
    Host.Outcome State Fault Refusal :=
  writeReg ilen rd (f (s.getX rs1) (s.getX rs2)) s

/-- `x[rd] <- npc; pc <- t` (R293, R294). -/
def jumpLink (ilen : Word) (rd : RegIdx) (t : Word) (s : State) : Host.Outcome State Fault Refusal :=
  .next ((s.setX rd (s.pc + ilen)).setPc t)

/-- `pc <- taken ? pc + off : npc` (R295 to R300). -/
def branch (ilen : Word) (taken : Bool) (off : Word) (s : State) : Host.Outcome State Fault Refusal :=
  .next (s.setPc (if taken then s.pc + off else s.pc + ilen))

/-- `x[rd] <- ext(MemRead(va, n)); pc <- npc` (R313 to R319). -/
def load (ilen : Word) (n : Nat) (ext : Word → Word) (rd : RegIdx) (va : Word) (s : State) :
    Host.Outcome State Fault Refusal :=
  ((memRead va n s).bind fun v s => .done () ((s.setX rd (ext v)).advance ilen)).finish

/-- `MemWrite(va, n, v); pc <- npc` (R320 to R323). -/
def store (ilen : Word) (n : Nat) (va v : Word) (s : State) : Host.Outcome State Fault Refusal :=
  ((memWrite va n v s).bind fun _ s => .done () (s.advance ilen)).finish

/-- `x[rd] <- ext(LR(va)); pc <- npc` (R352, R353). -/
def loadReserve (w : AmoWidth) (rd : RegIdx) (va : Word) (s : State) : Host.Outcome State Fault Refusal :=
  ((loadReserved va w s).bind fun v s =>
    .done () ((s.setX rd (sextBytes w.bytes v)).advance ilen4)).finish

/-- `x[rd] <- SC(va, v); pc <- npc` (R354, R355). -/
def storeCond (w : AmoWidth) (rd : RegIdx) (va v : Word) (s : State) : Host.Outcome State Fault Refusal :=
  ((storeConditional va w v s).bind fun r s => .done () ((s.setX rd r).advance ilen4)).finish

/-- `old <- MemAmo(va, n, v, F); x[rd] <- ext(old); pc <- npc` (R356 to R373). -/
def amo (w : AmoWidth) (tag : RmwTag) (rd : RegIdx) (va v : Word) (s : State) : Host.Outcome State Fault Refusal :=
  ((memAmo va w.bytes v tag s).bind fun old s =>
    .done () ((s.setX rd (sextBytes w.bytes old)).advance ilen4)).finish

/-- `old <- CsrUpdate(csr, data, op, wr); x[rd] <- old; pc <- npc` (R392 to R398). -/
def csrAccess (a : CsrNum) (data : Word) (op : CsrOp) (wr : Bool) (rd : RegIdx) (s : State) :
    Host.Outcome State Fault Refusal :=
  ((csrUpdate a data op wr s).bind fun old s => .done () ((s.setX rd old).advance ilen4)).finish

end Sys2Proof.Machine
end

