-- ==== Sys2Proof/Syntax.lean ====
section
/-! DEFINITION. The instructions of spec/opcode_table.json, one constructor a row. An operand is held as the bits
the encoding gives it: a scaled immediate without the low bits that are always 0 (R176, R178, R215). -/

namespace Sys2Proof

/-- Every row of spec/opcode_table.json (rules R190 to R201 and R210 to R216 of spec/30_encoding.md). Rows whose
outcome is a stop (floating point, URET, the unassigned compressed spaces) are constructors as well. -/
inductive Instr where
  -- Upper immediate (R231, R232): `imm` is inst[31:12].
  | lui (rd : RegIdx) (imm : BitVec 20)
  | auipc (rd : RegIdx) (imm : BitVec 20)
  -- Register-immediate (R233 to R245): `imm` is the 12-bit I-immediate, `shamt` the shift amount.
  | addi (rd : RegIdx) (rs1 : RegIdx) (imm : BitVec 12)
  | slti (rd : RegIdx) (rs1 : RegIdx) (imm : BitVec 12)
  | sltiu (rd : RegIdx) (rs1 : RegIdx) (imm : BitVec 12)
  | xori (rd : RegIdx) (rs1 : RegIdx) (imm : BitVec 12)
  | ori (rd : RegIdx) (rs1 : RegIdx) (imm : BitVec 12)
  | andi (rd : RegIdx) (rs1 : RegIdx) (imm : BitVec 12)
  | slli (rd : RegIdx) (rs1 : RegIdx) (shamt : BitVec 6)
  | srli (rd : RegIdx) (rs1 : RegIdx) (shamt : BitVec 6)
  | srai (rd : RegIdx) (rs1 : RegIdx) (shamt : BitVec 6)
  | addiw (rd : RegIdx) (rs1 : RegIdx) (imm : BitVec 12)
  | slliw (rd : RegIdx) (rs1 : RegIdx) (shamt : BitVec 5)
  | srliw (rd : RegIdx) (rs1 : RegIdx) (shamt : BitVec 5)
  | sraiw (rd : RegIdx) (rs1 : RegIdx) (shamt : BitVec 5)
  -- Register-register (R246 to R260).
  | add (rd : RegIdx) (rs1 : RegIdx) (rs2 : RegIdx)
  | sub (rd : RegIdx) (rs1 : RegIdx) (rs2 : RegIdx)
  | sll (rd : RegIdx) (rs1 : RegIdx) (rs2 : RegIdx)
  | slt (rd : RegIdx) (rs1 : RegIdx) (rs2 : RegIdx)
  | sltu (rd : RegIdx) (rs1 : RegIdx) (rs2 : RegIdx)
  | xor (rd : RegIdx) (rs1 : RegIdx) (rs2 : RegIdx)
  | srl (rd : RegIdx) (rs1 : RegIdx) (rs2 : RegIdx)
  | sra (rd : RegIdx) (rs1 : RegIdx) (rs2 : RegIdx)
  | or (rd : RegIdx) (rs1 : RegIdx) (rs2 : RegIdx)
  | and (rd : RegIdx) (rs1 : RegIdx) (rs2 : RegIdx)
  | addw (rd : RegIdx) (rs1 : RegIdx) (rs2 : RegIdx)
  | subw (rd : RegIdx) (rs1 : RegIdx) (rs2 : RegIdx)
  | sllw (rd : RegIdx) (rs1 : RegIdx) (rs2 : RegIdx)
  | srlw (rd : RegIdx) (rs1 : RegIdx) (rs2 : RegIdx)
  | sraw (rd : RegIdx) (rs1 : RegIdx) (rs2 : RegIdx)
  -- Control transfer (R293 to R300): `imm` is offset[20:1] for JAL, offset[12:1] for a branch, the I-immediate for JALR.
  | jal (rd : RegIdx) (imm : BitVec 20)
  | jalr (rd : RegIdx) (rs1 : RegIdx) (imm : BitVec 12)
  | beq (rs1 : RegIdx) (rs2 : RegIdx) (imm : BitVec 12)
  | bne (rs1 : RegIdx) (rs2 : RegIdx) (imm : BitVec 12)
  | blt (rs1 : RegIdx) (rs2 : RegIdx) (imm : BitVec 12)
  | bge (rs1 : RegIdx) (rs2 : RegIdx) (imm : BitVec 12)
  | bltu (rs1 : RegIdx) (rs2 : RegIdx) (imm : BitVec 12)
  | bgeu (rs1 : RegIdx) (rs2 : RegIdx) (imm : BitVec 12)
  -- Loads and stores (R313 to R323): `imm` is the 12-bit offset, `rs1` the base, `rs2` the data of a store.
  | lb (rd : RegIdx) (rs1 : RegIdx) (imm : BitVec 12)
  | lh (rd : RegIdx) (rs1 : RegIdx) (imm : BitVec 12)
  | lw (rd : RegIdx) (rs1 : RegIdx) (imm : BitVec 12)
  | ld (rd : RegIdx) (rs1 : RegIdx) (imm : BitVec 12)
  | lbu (rd : RegIdx) (rs1 : RegIdx) (imm : BitVec 12)
  | lhu (rd : RegIdx) (rs1 : RegIdx) (imm : BitVec 12)
  | lwu (rd : RegIdx) (rs1 : RegIdx) (imm : BitVec 12)
  | sb (rs1 : RegIdx) (rs2 : RegIdx) (imm : BitVec 12)
  | sh (rs1 : RegIdx) (rs2 : RegIdx) (imm : BitVec 12)
  | sw (rs1 : RegIdx) (rs2 : RegIdx) (imm : BitVec 12)
  | sd (rs1 : RegIdx) (rs2 : RegIdx) (imm : BitVec 12)
  -- M extension (R331 to R343).
  | mul (rd : RegIdx) (rs1 : RegIdx) (rs2 : RegIdx)
  | mulh (rd : RegIdx) (rs1 : RegIdx) (rs2 : RegIdx)
  | mulhsu (rd : RegIdx) (rs1 : RegIdx) (rs2 : RegIdx)
  | mulhu (rd : RegIdx) (rs1 : RegIdx) (rs2 : RegIdx)
  | mulw (rd : RegIdx) (rs1 : RegIdx) (rs2 : RegIdx)
  | div (rd : RegIdx) (rs1 : RegIdx) (rs2 : RegIdx)
  | divu (rd : RegIdx) (rs1 : RegIdx) (rs2 : RegIdx)
  | rem (rd : RegIdx) (rs1 : RegIdx) (rs2 : RegIdx)
  | remu (rd : RegIdx) (rs1 : RegIdx) (rs2 : RegIdx)
  | divw (rd : RegIdx) (rs1 : RegIdx) (rs2 : RegIdx)
  | divuw (rd : RegIdx) (rs1 : RegIdx) (rs2 : RegIdx)
  | remw (rd : RegIdx) (rs1 : RegIdx) (rs2 : RegIdx)
  | remuw (rd : RegIdx) (rs1 : RegIdx) (rs2 : RegIdx)
  -- A extension (R352 to R373): `aq` and `rl` are decoded and ignored (R152, R181).
  | lrW (rd : RegIdx) (rs1 : RegIdx) (aq : BitVec 1) (rl : BitVec 1)
  | lrD (rd : RegIdx) (rs1 : RegIdx) (aq : BitVec 1) (rl : BitVec 1)
  | scW (rd : RegIdx) (rs1 : RegIdx) (rs2 : RegIdx) (aq : BitVec 1) (rl : BitVec 1)
  | scD (rd : RegIdx) (rs1 : RegIdx) (rs2 : RegIdx) (aq : BitVec 1) (rl : BitVec 1)
  | amoswapW (rd : RegIdx) (rs1 : RegIdx) (rs2 : RegIdx) (aq : BitVec 1) (rl : BitVec 1)
  | amoaddW (rd : RegIdx) (rs1 : RegIdx) (rs2 : RegIdx) (aq : BitVec 1) (rl : BitVec 1)
  | amoxorW (rd : RegIdx) (rs1 : RegIdx) (rs2 : RegIdx) (aq : BitVec 1) (rl : BitVec 1)
  | amoandW (rd : RegIdx) (rs1 : RegIdx) (rs2 : RegIdx) (aq : BitVec 1) (rl : BitVec 1)
  | amoorW (rd : RegIdx) (rs1 : RegIdx) (rs2 : RegIdx) (aq : BitVec 1) (rl : BitVec 1)
  | amominW (rd : RegIdx) (rs1 : RegIdx) (rs2 : RegIdx) (aq : BitVec 1) (rl : BitVec 1)
  | amomaxW (rd : RegIdx) (rs1 : RegIdx) (rs2 : RegIdx) (aq : BitVec 1) (rl : BitVec 1)
  | amominuW (rd : RegIdx) (rs1 : RegIdx) (rs2 : RegIdx) (aq : BitVec 1) (rl : BitVec 1)
  | amomaxuW (rd : RegIdx) (rs1 : RegIdx) (rs2 : RegIdx) (aq : BitVec 1) (rl : BitVec 1)
  | amoswapD (rd : RegIdx) (rs1 : RegIdx) (rs2 : RegIdx) (aq : BitVec 1) (rl : BitVec 1)
  | amoaddD (rd : RegIdx) (rs1 : RegIdx) (rs2 : RegIdx) (aq : BitVec 1) (rl : BitVec 1)
  | amoxorD (rd : RegIdx) (rs1 : RegIdx) (rs2 : RegIdx) (aq : BitVec 1) (rl : BitVec 1)
  | amoandD (rd : RegIdx) (rs1 : RegIdx) (rs2 : RegIdx) (aq : BitVec 1) (rl : BitVec 1)
  | amoorD (rd : RegIdx) (rs1 : RegIdx) (rs2 : RegIdx) (aq : BitVec 1) (rl : BitVec 1)
  | amominD (rd : RegIdx) (rs1 : RegIdx) (rs2 : RegIdx) (aq : BitVec 1) (rl : BitVec 1)
  | amomaxD (rd : RegIdx) (rs1 : RegIdx) (rs2 : RegIdx) (aq : BitVec 1) (rl : BitVec 1)
  | amominuD (rd : RegIdx) (rs1 : RegIdx) (rs2 : RegIdx) (aq : BitVec 1) (rl : BitVec 1)
  | amomaxuD (rd : RegIdx) (rs1 : RegIdx) (rs2 : RegIdx) (aq : BitVec 1) (rl : BitVec 1)
  -- Zicsr (R393 to R398): `uimm` is the 5-bit immediate of the I forms (R180).
  | csrrw (rd : RegIdx) (rs1 : RegIdx) (csr : CsrNum)
  | csrrs (rd : RegIdx) (rs1 : RegIdx) (csr : CsrNum)
  | csrrc (rd : RegIdx) (rs1 : RegIdx) (csr : CsrNum)
  | csrrwi (rd : RegIdx) (uimm : BitVec 5) (csr : CsrNum)
  | csrrsi (rd : RegIdx) (uimm : BitVec 5) (csr : CsrNum)
  | csrrci (rd : RegIdx) (uimm : BitVec 5) (csr : CsrNum)
  -- System and privileged (R410 to R418): the fields of FENCE, FENCE.I and SFENCE.VMA are kept and ignored.
  | ecall
  | ebreak
  | uret
  | sret
  | mret
  | wfi
  | sfenceVma (rs1 : RegIdx) (rs2 : RegIdx)
  | fence (fm : BitVec 4) (pred : BitVec 4) (succ : BitVec 4) (rs1 : RegIdx) (rd : RegIdx)
  | fenceI (imm : BitVec 12) (rs1 : RegIdx) (rd : RegIdx)
  -- Floating-point major opcodes, refused (R206): `bits` is inst[31:7].
  | loadFp (bits : BitVec 25)
  | storeFp (bits : BitVec 25)
  | fmadd (bits : BitVec 25)
  | fmsub (bits : BitVec 25)
  | fnmsub (bits : BitVec 25)
  | fnmadd (bits : BitVec 25)
  | opFp (bits : BitVec 25)
  -- Compressed, quadrant 0 (R431 to R439): `imm` is offset[9:2], offset[6:2] (words) or offset[7:3] (doublewords); `bits` is inst[12:2].
  | cIllegal
  | cAddi4spn (rd : CRegIdx) (imm : BitVec 8)
  | cFld (bits : BitVec 11)
  | cLw (rd : CRegIdx) (rs1 : CRegIdx) (imm : BitVec 5)
  | cLd (rd : CRegIdx) (rs1 : CRegIdx) (imm : BitVec 5)
  | cReservedQ0 (bits : BitVec 11)
  | cFsd (bits : BitVec 11)
  | cSw (rs1 : CRegIdx) (rs2 : CRegIdx) (imm : BitVec 5)
  | cSd (rs1 : CRegIdx) (rs2 : CRegIdx) (imm : BitVec 5)
  -- Compressed, quadrant 1 (R440 to R465): `imm` is imm[5:0], imm[9:4] (C.ADDI16SP), imm[17:12] (C.LUI), offset[11:1] (C.J) or offset[8:1] (branches).
  | cNop (imm : BitVec 6)
  | cAddi (rd : RegIdx) (imm : BitVec 6)
  | cAddiw (rd : RegIdx) (imm : BitVec 6)
  | cLi (rd : RegIdx) (imm : BitVec 6)
  | cAddi16sp (imm : BitVec 6)
  | cLui (rd : RegIdx) (imm : BitVec 6)
  | cSrli (rd : CRegIdx) (shamt : BitVec 6)
  | cSrai (rd : CRegIdx) (shamt : BitVec 6)
  | cAndi (rd : CRegIdx) (imm : BitVec 6)
  | cSub (rd : CRegIdx) (rs2 : CRegIdx)
  | cXor (rd : CRegIdx) (rs2 : CRegIdx)
  | cOr (rd : CRegIdx) (rs2 : CRegIdx)
  | cAnd (rd : CRegIdx) (rs2 : CRegIdx)
  | cSubw (rd : CRegIdx) (rs2 : CRegIdx)
  | cAddw (rd : CRegIdx) (rs2 : CRegIdx)
  | cReservedQ1 (rd : CRegIdx) (low : BitVec 1) (rs2 : CRegIdx)
  | cJ (imm : BitVec 11)
  | cBeqz (rs1 : CRegIdx) (imm : BitVec 8)
  | cBnez (rs1 : CRegIdx) (imm : BitVec 8)
  -- Compressed, quadrant 2 (R470 to R481): `imm` is offset[7:2] (words) or offset[8:3] (doublewords).
  | cSlli (rd : RegIdx) (shamt : BitVec 6)
  | cFldsp (bits : BitVec 11)
  | cLwsp (rd : RegIdx) (imm : BitVec 6)
  | cLdsp (rd : RegIdx) (imm : BitVec 6)
  | cFsdsp (bits : BitVec 11)
  | cSwsp (rs2 : RegIdx) (imm : BitVec 6)
  | cSdsp (rs2 : RegIdx) (imm : BitVec 6)
  | cEbreak
  | cJalr (rs1 : RegIdx)
  | cJr (rs1 : RegIdx)
  | cMv (rd : RegIdx) (rs2 : RegIdx)
  | cAdd (rd : RegIdx) (rs2 : RegIdx)
  deriving DecidableEq, Repr

/-- The length of an instruction in bytes (`ilen` of R170): 2 for the compressed rows, 4 for the others. -/
def Instr.ilen : Instr → Nat
  | .lui _ _ => 4
  | .auipc _ _ => 4
  | .addi _ _ _ => 4
  | .slti _ _ _ => 4
  | .sltiu _ _ _ => 4
  | .xori _ _ _ => 4
  | .ori _ _ _ => 4
  | .andi _ _ _ => 4
  | .slli _ _ _ => 4
  | .srli _ _ _ => 4
  | .srai _ _ _ => 4
  | .addiw _ _ _ => 4
  | .slliw _ _ _ => 4
  | .srliw _ _ _ => 4
  | .sraiw _ _ _ => 4
  | .add _ _ _ => 4
  | .sub _ _ _ => 4
  | .sll _ _ _ => 4
  | .slt _ _ _ => 4
  | .sltu _ _ _ => 4
  | .xor _ _ _ => 4
  | .srl _ _ _ => 4
  | .sra _ _ _ => 4
  | .or _ _ _ => 4
  | .and _ _ _ => 4
  | .addw _ _ _ => 4
  | .subw _ _ _ => 4
  | .sllw _ _ _ => 4
  | .srlw _ _ _ => 4
  | .sraw _ _ _ => 4
  | .jal _ _ => 4
  | .jalr _ _ _ => 4
  | .beq _ _ _ => 4
  | .bne _ _ _ => 4
  | .blt _ _ _ => 4
  | .bge _ _ _ => 4
  | .bltu _ _ _ => 4
  | .bgeu _ _ _ => 4
  | .lb _ _ _ => 4
  | .lh _ _ _ => 4
  | .lw _ _ _ => 4
  | .ld _ _ _ => 4
  | .lbu _ _ _ => 4
  | .lhu _ _ _ => 4
  | .lwu _ _ _ => 4
  | .sb _ _ _ => 4
  | .sh _ _ _ => 4
  | .sw _ _ _ => 4
  | .sd _ _ _ => 4
  | .mul _ _ _ => 4
  | .mulh _ _ _ => 4
  | .mulhsu _ _ _ => 4
  | .mulhu _ _ _ => 4
  | .mulw _ _ _ => 4
  | .div _ _ _ => 4
  | .divu _ _ _ => 4
  | .rem _ _ _ => 4
  | .remu _ _ _ => 4
  | .divw _ _ _ => 4
  | .divuw _ _ _ => 4
  | .remw _ _ _ => 4
  | .remuw _ _ _ => 4
  | .lrW _ _ _ _ => 4
  | .lrD _ _ _ _ => 4
  | .scW _ _ _ _ _ => 4
  | .scD _ _ _ _ _ => 4
  | .amoswapW _ _ _ _ _ => 4
  | .amoaddW _ _ _ _ _ => 4
  | .amoxorW _ _ _ _ _ => 4
  | .amoandW _ _ _ _ _ => 4
  | .amoorW _ _ _ _ _ => 4
  | .amominW _ _ _ _ _ => 4
  | .amomaxW _ _ _ _ _ => 4
  | .amominuW _ _ _ _ _ => 4
  | .amomaxuW _ _ _ _ _ => 4
  | .amoswapD _ _ _ _ _ => 4
  | .amoaddD _ _ _ _ _ => 4
  | .amoxorD _ _ _ _ _ => 4
  | .amoandD _ _ _ _ _ => 4
  | .amoorD _ _ _ _ _ => 4
  | .amominD _ _ _ _ _ => 4
  | .amomaxD _ _ _ _ _ => 4
  | .amominuD _ _ _ _ _ => 4
  | .amomaxuD _ _ _ _ _ => 4
  | .csrrw _ _ _ => 4
  | .csrrs _ _ _ => 4
  | .csrrc _ _ _ => 4
  | .csrrwi _ _ _ => 4
  | .csrrsi _ _ _ => 4
  | .csrrci _ _ _ => 4
  | .ecall => 4
  | .ebreak => 4
  | .uret => 4
  | .sret => 4
  | .mret => 4
  | .wfi => 4
  | .sfenceVma _ _ => 4
  | .fence _ _ _ _ _ => 4
  | .fenceI _ _ _ => 4
  | .loadFp _ => 4
  | .storeFp _ => 4
  | .fmadd _ => 4
  | .fmsub _ => 4
  | .fnmsub _ => 4
  | .fnmadd _ => 4
  | .opFp _ => 4
  | .cIllegal => 2
  | .cAddi4spn _ _ => 2
  | .cFld _ => 2
  | .cLw _ _ _ => 2
  | .cLd _ _ _ => 2
  | .cReservedQ0 _ => 2
  | .cFsd _ => 2
  | .cSw _ _ _ => 2
  | .cSd _ _ _ => 2
  | .cNop _ => 2
  | .cAddi _ _ => 2
  | .cAddiw _ _ => 2
  | .cLi _ _ => 2
  | .cAddi16sp _ => 2
  | .cLui _ _ => 2
  | .cSrli _ _ => 2
  | .cSrai _ _ => 2
  | .cAndi _ _ => 2
  | .cSub _ _ => 2
  | .cXor _ _ => 2
  | .cOr _ _ => 2
  | .cAnd _ _ => 2
  | .cSubw _ _ => 2
  | .cAddw _ _ => 2
  | .cReservedQ1 _ _ _ => 2
  | .cJ _ => 2
  | .cBeqz _ _ => 2
  | .cBnez _ _ => 2
  | .cSlli _ _ => 2
  | .cFldsp _ => 2
  | .cLwsp _ _ => 2
  | .cLdsp _ _ => 2
  | .cFsdsp _ => 2
  | .cSwsp _ _ => 2
  | .cSdsp _ _ => 2
  | .cEbreak => 2
  | .cJalr _ => 2
  | .cJr _ => 2
  | .cMv _ _ => 2
  | .cAdd _ _ => 2

end Sys2Proof
end

