-- ==== Sys2Proof/Machine/Alu.lean ====
section
/-! DEFINITION. Integer ALU instructions (spec/40_integer_alu.md, R230 to R261). -/

namespace Sys2Proof.Machine

/-- LUI (R231). -/
def execLui (rd : RegIdx) (imm : BitVec 20) (s : State) : Host.Outcome State Fault Refusal :=
  writeReg ilen4 rd (immU imm) s

/-- AUIPC (R232). -/
def execAuipc (rd : RegIdx) (imm : BitVec 20) (s : State) : Host.Outcome State Fault Refusal :=
  writeReg ilen4 rd (s.pc + immU imm) s

/-- ADDI (R233). -/
def execAddi (rd : RegIdx) (rs1 : RegIdx) (imm : BitVec 12) (s : State) : Host.Outcome State Fault Refusal :=
  regImm ilen4 addVal rd rs1 (imm12 imm) s

/-- SLTI (R234). -/
def execSlti (rd : RegIdx) (rs1 : RegIdx) (imm : BitVec 12) (s : State) : Host.Outcome State Fault Refusal :=
  regImm ilen4 sltVal rd rs1 (imm12 imm) s

/-- SLTIU (R235). -/
def execSltiu (rd : RegIdx) (rs1 : RegIdx) (imm : BitVec 12) (s : State) : Host.Outcome State Fault Refusal :=
  regImm ilen4 sltuVal rd rs1 (imm12 imm) s

/-- XORI (R236). -/
def execXori (rd : RegIdx) (rs1 : RegIdx) (imm : BitVec 12) (s : State) : Host.Outcome State Fault Refusal :=
  regImm ilen4 xorVal rd rs1 (imm12 imm) s

/-- ORI (R237). -/
def execOri (rd : RegIdx) (rs1 : RegIdx) (imm : BitVec 12) (s : State) : Host.Outcome State Fault Refusal :=
  regImm ilen4 orVal rd rs1 (imm12 imm) s

/-- ANDI (R238). -/
def execAndi (rd : RegIdx) (rs1 : RegIdx) (imm : BitVec 12) (s : State) : Host.Outcome State Fault Refusal :=
  regImm ilen4 andVal rd rs1 (imm12 imm) s

/-- SLLI (R239). -/
def execSlli (rd : RegIdx) (rs1 : RegIdx) (shamt : BitVec 6) (s : State) : Host.Outcome State Fault Refusal :=
  regImm ilen4 sllVal rd rs1 (zext shamt) s

/-- SRLI (R240). -/
def execSrli (rd : RegIdx) (rs1 : RegIdx) (shamt : BitVec 6) (s : State) : Host.Outcome State Fault Refusal :=
  regImm ilen4 srlVal rd rs1 (zext shamt) s

/-- SRAI (R241). -/
def execSrai (rd : RegIdx) (rs1 : RegIdx) (shamt : BitVec 6) (s : State) : Host.Outcome State Fault Refusal :=
  regImm ilen4 sraVal rd rs1 (zext shamt) s

/-- ADDIW (R242). -/
def execAddiw (rd : RegIdx) (rs1 : RegIdx) (imm : BitVec 12) (s : State) : Host.Outcome State Fault Refusal :=
  regImm ilen4 addwVal rd rs1 (imm12 imm) s

/-- SLLIW (R243). -/
def execSlliw (rd : RegIdx) (rs1 : RegIdx) (shamt : BitVec 5) (s : State) : Host.Outcome State Fault Refusal :=
  regImm ilen4 sllwVal rd rs1 (zext shamt) s

/-- SRLIW (R244). -/
def execSrliw (rd : RegIdx) (rs1 : RegIdx) (shamt : BitVec 5) (s : State) : Host.Outcome State Fault Refusal :=
  regImm ilen4 srlwVal rd rs1 (zext shamt) s

/-- SRAIW (R245). -/
def execSraiw (rd : RegIdx) (rs1 : RegIdx) (shamt : BitVec 5) (s : State) : Host.Outcome State Fault Refusal :=
  regImm ilen4 srawVal rd rs1 (zext shamt) s

/-- ADD (R246). -/
def execAdd (rd : RegIdx) (rs1 : RegIdx) (rs2 : RegIdx) (s : State) : Host.Outcome State Fault Refusal :=
  regReg ilen4 addVal rd rs1 rs2 s

/-- SUB (R247). -/
def execSub (rd : RegIdx) (rs1 : RegIdx) (rs2 : RegIdx) (s : State) : Host.Outcome State Fault Refusal :=
  regReg ilen4 subVal rd rs1 rs2 s

/-- SLL (R248). -/
def execSll (rd : RegIdx) (rs1 : RegIdx) (rs2 : RegIdx) (s : State) : Host.Outcome State Fault Refusal :=
  regReg ilen4 sllVal rd rs1 rs2 s

/-- SLT (R249). -/
def execSlt (rd : RegIdx) (rs1 : RegIdx) (rs2 : RegIdx) (s : State) : Host.Outcome State Fault Refusal :=
  regReg ilen4 sltVal rd rs1 rs2 s

/-- SLTU (R250). -/
def execSltu (rd : RegIdx) (rs1 : RegIdx) (rs2 : RegIdx) (s : State) : Host.Outcome State Fault Refusal :=
  regReg ilen4 sltuVal rd rs1 rs2 s

/-- XOR (R251). -/
def execXor (rd : RegIdx) (rs1 : RegIdx) (rs2 : RegIdx) (s : State) : Host.Outcome State Fault Refusal :=
  regReg ilen4 xorVal rd rs1 rs2 s

/-- SRL (R252). -/
def execSrl (rd : RegIdx) (rs1 : RegIdx) (rs2 : RegIdx) (s : State) : Host.Outcome State Fault Refusal :=
  regReg ilen4 srlVal rd rs1 rs2 s

/-- SRA (R253). -/
def execSra (rd : RegIdx) (rs1 : RegIdx) (rs2 : RegIdx) (s : State) : Host.Outcome State Fault Refusal :=
  regReg ilen4 sraVal rd rs1 rs2 s

/-- OR (R254). -/
def execOr (rd : RegIdx) (rs1 : RegIdx) (rs2 : RegIdx) (s : State) : Host.Outcome State Fault Refusal :=
  regReg ilen4 orVal rd rs1 rs2 s

/-- AND (R255). -/
def execAnd (rd : RegIdx) (rs1 : RegIdx) (rs2 : RegIdx) (s : State) : Host.Outcome State Fault Refusal :=
  regReg ilen4 andVal rd rs1 rs2 s

/-- ADDW (R256). -/
def execAddw (rd : RegIdx) (rs1 : RegIdx) (rs2 : RegIdx) (s : State) : Host.Outcome State Fault Refusal :=
  regReg ilen4 addwVal rd rs1 rs2 s

/-- SUBW (R257). -/
def execSubw (rd : RegIdx) (rs1 : RegIdx) (rs2 : RegIdx) (s : State) : Host.Outcome State Fault Refusal :=
  regReg ilen4 subwVal rd rs1 rs2 s

/-- SLLW (R258). -/
def execSllw (rd : RegIdx) (rs1 : RegIdx) (rs2 : RegIdx) (s : State) : Host.Outcome State Fault Refusal :=
  regReg ilen4 sllwVal rd rs1 rs2 s

/-- SRLW (R259). -/
def execSrlw (rd : RegIdx) (rs1 : RegIdx) (rs2 : RegIdx) (s : State) : Host.Outcome State Fault Refusal :=
  regReg ilen4 srlwVal rd rs1 rs2 s

/-- SRAW (R260). -/
def execSraw (rd : RegIdx) (rs1 : RegIdx) (rs2 : RegIdx) (s : State) : Host.Outcome State Fault Refusal :=
  regReg ilen4 srawVal rd rs1 rs2 s

end Sys2Proof.Machine
end

