-- ==== Sys2Proof/Machine/Atomic.lean ====
section
/-! DEFINITION. A extension (spec/44_a_extension.md, R350 to R373): `aq` and `rl` are ignored (R152). -/

namespace Sys2Proof.Machine

/-- LR.W (R352). -/
def execLrW (rd : RegIdx) (rs1 : RegIdx) (_aq : BitVec 1) (_rl : BitVec 1) (s : State) : Host.Outcome State Fault Refusal :=
  loadReserve .word rd (s.getX rs1) s

/-- LR.D (R353). -/
def execLrD (rd : RegIdx) (rs1 : RegIdx) (_aq : BitVec 1) (_rl : BitVec 1) (s : State) : Host.Outcome State Fault Refusal :=
  loadReserve .double rd (s.getX rs1) s

/-- SC.W (R354). -/
def execScW (rd : RegIdx) (rs1 : RegIdx) (rs2 : RegIdx) (_aq : BitVec 1) (_rl : BitVec 1) (s : State) : Host.Outcome State Fault Refusal :=
  storeCond .word rd (s.getX rs1) (s.getX rs2) s

/-- SC.D (R355). -/
def execScD (rd : RegIdx) (rs1 : RegIdx) (rs2 : RegIdx) (_aq : BitVec 1) (_rl : BitVec 1) (s : State) : Host.Outcome State Fault Refusal :=
  storeCond .double rd (s.getX rs1) (s.getX rs2) s

/-- AMOSWAP.W (R356). -/
def execAmoswapW (rd : RegIdx) (rs1 : RegIdx) (rs2 : RegIdx) (_aq : BitVec 1) (_rl : BitVec 1) (s : State) : Host.Outcome State Fault Refusal :=
  amo .word .swap rd (s.getX rs1) (s.getX rs2) s

/-- AMOADD.W (R357). -/
def execAmoaddW (rd : RegIdx) (rs1 : RegIdx) (rs2 : RegIdx) (_aq : BitVec 1) (_rl : BitVec 1) (s : State) : Host.Outcome State Fault Refusal :=
  amo .word .add rd (s.getX rs1) (s.getX rs2) s

/-- AMOXOR.W (R358). -/
def execAmoxorW (rd : RegIdx) (rs1 : RegIdx) (rs2 : RegIdx) (_aq : BitVec 1) (_rl : BitVec 1) (s : State) : Host.Outcome State Fault Refusal :=
  amo .word .xor rd (s.getX rs1) (s.getX rs2) s

/-- AMOAND.W (R359). -/
def execAmoandW (rd : RegIdx) (rs1 : RegIdx) (rs2 : RegIdx) (_aq : BitVec 1) (_rl : BitVec 1) (s : State) : Host.Outcome State Fault Refusal :=
  amo .word .and rd (s.getX rs1) (s.getX rs2) s

/-- AMOOR.W (R360). -/
def execAmoorW (rd : RegIdx) (rs1 : RegIdx) (rs2 : RegIdx) (_aq : BitVec 1) (_rl : BitVec 1) (s : State) : Host.Outcome State Fault Refusal :=
  amo .word .or rd (s.getX rs1) (s.getX rs2) s

/-- AMOMIN.W (R361). -/
def execAmominW (rd : RegIdx) (rs1 : RegIdx) (rs2 : RegIdx) (_aq : BitVec 1) (_rl : BitVec 1) (s : State) : Host.Outcome State Fault Refusal :=
  amo .word .min rd (s.getX rs1) (s.getX rs2) s

/-- AMOMAX.W (R362). -/
def execAmomaxW (rd : RegIdx) (rs1 : RegIdx) (rs2 : RegIdx) (_aq : BitVec 1) (_rl : BitVec 1) (s : State) : Host.Outcome State Fault Refusal :=
  amo .word .max rd (s.getX rs1) (s.getX rs2) s

/-- AMOMINU.W (R363). -/
def execAmominuW (rd : RegIdx) (rs1 : RegIdx) (rs2 : RegIdx) (_aq : BitVec 1) (_rl : BitVec 1) (s : State) : Host.Outcome State Fault Refusal :=
  amo .word .minu rd (s.getX rs1) (s.getX rs2) s

/-- AMOMAXU.W (R364). -/
def execAmomaxuW (rd : RegIdx) (rs1 : RegIdx) (rs2 : RegIdx) (_aq : BitVec 1) (_rl : BitVec 1) (s : State) : Host.Outcome State Fault Refusal :=
  amo .word .maxu rd (s.getX rs1) (s.getX rs2) s

/-- AMOSWAP.D (R365). -/
def execAmoswapD (rd : RegIdx) (rs1 : RegIdx) (rs2 : RegIdx) (_aq : BitVec 1) (_rl : BitVec 1) (s : State) : Host.Outcome State Fault Refusal :=
  amo .double .swap rd (s.getX rs1) (s.getX rs2) s

/-- AMOADD.D (R366). -/
def execAmoaddD (rd : RegIdx) (rs1 : RegIdx) (rs2 : RegIdx) (_aq : BitVec 1) (_rl : BitVec 1) (s : State) : Host.Outcome State Fault Refusal :=
  amo .double .add rd (s.getX rs1) (s.getX rs2) s

/-- AMOXOR.D (R367). -/
def execAmoxorD (rd : RegIdx) (rs1 : RegIdx) (rs2 : RegIdx) (_aq : BitVec 1) (_rl : BitVec 1) (s : State) : Host.Outcome State Fault Refusal :=
  amo .double .xor rd (s.getX rs1) (s.getX rs2) s

/-- AMOAND.D (R368). -/
def execAmoandD (rd : RegIdx) (rs1 : RegIdx) (rs2 : RegIdx) (_aq : BitVec 1) (_rl : BitVec 1) (s : State) : Host.Outcome State Fault Refusal :=
  amo .double .and rd (s.getX rs1) (s.getX rs2) s

/-- AMOOR.D (R369). -/
def execAmoorD (rd : RegIdx) (rs1 : RegIdx) (rs2 : RegIdx) (_aq : BitVec 1) (_rl : BitVec 1) (s : State) : Host.Outcome State Fault Refusal :=
  amo .double .or rd (s.getX rs1) (s.getX rs2) s

/-- AMOMIN.D (R370). -/
def execAmominD (rd : RegIdx) (rs1 : RegIdx) (rs2 : RegIdx) (_aq : BitVec 1) (_rl : BitVec 1) (s : State) : Host.Outcome State Fault Refusal :=
  amo .double .min rd (s.getX rs1) (s.getX rs2) s

/-- AMOMAX.D (R371). -/
def execAmomaxD (rd : RegIdx) (rs1 : RegIdx) (rs2 : RegIdx) (_aq : BitVec 1) (_rl : BitVec 1) (s : State) : Host.Outcome State Fault Refusal :=
  amo .double .max rd (s.getX rs1) (s.getX rs2) s

/-- AMOMINU.D (R372). -/
def execAmominuD (rd : RegIdx) (rs1 : RegIdx) (rs2 : RegIdx) (_aq : BitVec 1) (_rl : BitVec 1) (s : State) : Host.Outcome State Fault Refusal :=
  amo .double .minu rd (s.getX rs1) (s.getX rs2) s

/-- AMOMAXU.D (R373). -/
def execAmomaxuD (rd : RegIdx) (rs1 : RegIdx) (rs2 : RegIdx) (_aq : BitVec 1) (_rl : BitVec 1) (s : State) : Host.Outcome State Fault Refusal :=
  amo .double .maxu rd (s.getX rs1) (s.getX rs2) s

end Sys2Proof.Machine
end

