-- ==== Sys2Proof/WellFormed.lean ====
section
/-! DEFINITION. Which terms of `Instr` an encoding stands for: the operand values that spec/opcode_table.json
excludes from a row (`constraint`), that is the reserved forms of R216 and the forms a row of higher priority takes
(R212 to R214). Every other operand value of every row is encodable. -/

namespace Sys2Proof

/-- No encoding of the row with these operands exists, exactly when this is false. -/
def Instr.wf : Instr → Bool
  | .lui _ _ => true
  | .auipc _ _ => true
  | .addi _ _ _ => true
  | .slti _ _ _ => true
  | .sltiu _ _ _ => true
  | .xori _ _ _ => true
  | .ori _ _ _ => true
  | .andi _ _ _ => true
  | .slli _ _ _ => true
  | .srli _ _ _ => true
  | .srai _ _ _ => true
  | .addiw _ _ _ => true
  | .slliw _ _ _ => true
  | .srliw _ _ _ => true
  | .sraiw _ _ _ => true
  | .add _ _ _ => true
  | .sub _ _ _ => true
  | .sll _ _ _ => true
  | .slt _ _ _ => true
  | .sltu _ _ _ => true
  | .xor _ _ _ => true
  | .srl _ _ _ => true
  | .sra _ _ _ => true
  | .or _ _ _ => true
  | .and _ _ _ => true
  | .addw _ _ _ => true
  | .subw _ _ _ => true
  | .sllw _ _ _ => true
  | .srlw _ _ _ => true
  | .sraw _ _ _ => true
  | .jal _ _ => true
  | .jalr _ _ _ => true
  | .beq _ _ _ => true
  | .bne _ _ _ => true
  | .blt _ _ _ => true
  | .bge _ _ _ => true
  | .bltu _ _ _ => true
  | .bgeu _ _ _ => true
  | .lb _ _ _ => true
  | .lh _ _ _ => true
  | .lw _ _ _ => true
  | .ld _ _ _ => true
  | .lbu _ _ _ => true
  | .lhu _ _ _ => true
  | .lwu _ _ _ => true
  | .sb _ _ _ => true
  | .sh _ _ _ => true
  | .sw _ _ _ => true
  | .sd _ _ _ => true
  | .mul _ _ _ => true
  | .mulh _ _ _ => true
  | .mulhsu _ _ _ => true
  | .mulhu _ _ _ => true
  | .mulw _ _ _ => true
  | .div _ _ _ => true
  | .divu _ _ _ => true
  | .rem _ _ _ => true
  | .remu _ _ _ => true
  | .divw _ _ _ => true
  | .divuw _ _ _ => true
  | .remw _ _ _ => true
  | .remuw _ _ _ => true
  | .lrW _ _ _ _ => true
  | .lrD _ _ _ _ => true
  | .scW _ _ _ _ _ => true
  | .scD _ _ _ _ _ => true
  | .amoswapW _ _ _ _ _ => true
  | .amoaddW _ _ _ _ _ => true
  | .amoxorW _ _ _ _ _ => true
  | .amoandW _ _ _ _ _ => true
  | .amoorW _ _ _ _ _ => true
  | .amominW _ _ _ _ _ => true
  | .amomaxW _ _ _ _ _ => true
  | .amominuW _ _ _ _ _ => true
  | .amomaxuW _ _ _ _ _ => true
  | .amoswapD _ _ _ _ _ => true
  | .amoaddD _ _ _ _ _ => true
  | .amoxorD _ _ _ _ _ => true
  | .amoandD _ _ _ _ _ => true
  | .amoorD _ _ _ _ _ => true
  | .amominD _ _ _ _ _ => true
  | .amomaxD _ _ _ _ _ => true
  | .amominuD _ _ _ _ _ => true
  | .amomaxuD _ _ _ _ _ => true
  | .csrrw _ _ _ => true
  | .csrrs _ _ _ => true
  | .csrrc _ _ _ => true
  | .csrrwi _ _ _ => true
  | .csrrsi _ _ _ => true
  | .csrrci _ _ _ => true
  | .ecall => true
  | .ebreak => true
  | .uret => true
  | .sret => true
  | .mret => true
  | .wfi => true
  | .sfenceVma _ _ => true
  | .fence _ _ _ _ _ => true
  | .fenceI _ _ _ => true
  | .loadFp _ => true
  | .storeFp _ => true
  | .fmadd _ => true
  | .fmsub _ => true
  | .fnmsub _ => true
  | .fnmadd _ => true
  | .opFp _ => true
  | .cIllegal => true
  | .cAddi4spn _ imm => decide (imm ≠ 0)
  | .cFld _ => true
  | .cLw _ _ _ => true
  | .cLd _ _ _ => true
  | .cReservedQ0 _ => true
  | .cFsd _ => true
  | .cSw _ _ _ => true
  | .cSd _ _ _ => true
  | .cNop _ => true
  | .cAddi rd _ => decide (rd ≠ 0)
  | .cAddiw rd _ => decide (rd ≠ 0)
  | .cLi _ _ => true
  | .cAddi16sp imm => decide (imm ≠ 0)
  | .cLui rd imm => decide (rd ≠ 2) && decide (imm ≠ 0)
  | .cSrli _ _ => true
  | .cSrai _ _ => true
  | .cAndi _ _ => true
  | .cSub _ _ => true
  | .cXor _ _ => true
  | .cOr _ _ => true
  | .cAnd _ _ => true
  | .cSubw _ _ => true
  | .cAddw _ _ => true
  | .cReservedQ1 _ _ _ => true
  | .cJ _ => true
  | .cBeqz _ _ => true
  | .cBnez _ _ => true
  | .cSlli _ _ => true
  | .cFldsp _ => true
  | .cLwsp rd _ => decide (rd ≠ 0)
  | .cLdsp rd _ => decide (rd ≠ 0)
  | .cFsdsp _ => true
  | .cSwsp _ _ => true
  | .cSdsp _ _ => true
  | .cEbreak => true
  | .cJalr rs1 => decide (rs1 ≠ 0)
  | .cJr rs1 => decide (rs1 ≠ 0)
  | .cMv _ rs2 => decide (rs2 ≠ 0)
  | .cAdd _ rs2 => decide (rs2 ≠ 0)

/-- A well-formed instruction: one that some word of the instruction stream decodes to. -/
abbrev WellFormed (i : Instr) : Prop := i.wf = true

end Sys2Proof
end

