-- ==== Sys2Proof/Decode.lean ====
section
/-! DEFINITION. The decoder (rules R170 to R216 of spec/30_encoding.md, R430 to R481 of spec/47_c_extension.md), total
on any bytes, and after it the encoder, both written from the same encoding tables. The encodings are the spec's
general knowledge (spec/93_implementation_defined.md G1; log entry 16). -/

namespace Sys2Proof

/-- What the decoder answers for bits it has no instruction for (R172). -/
inductive Reject where
  /-- an encoding in no table: fatal UnknownEncoding (R205); a 16-bit parcel is zero-extended -/
  | unknownEncoding (bits : BitVec 32)
  /-- a reserved operand form of a compressed row: refuse ReservedCompressed (R216) -/
  | reservedCompressed
  deriving DecidableEq, Repr

/-- What a list of bytes can be refused for: its bits, or too few of them (a fetch reads every parcel it needs, R504,
so this second case is of the list only). -/
inductive BytesReject where
  | rejected (r : Reject)
  | truncated
  deriving DecidableEq, Repr

/-- The bits of one instruction as fetched (R170, R504): one parcel, or two. -/
inductive InstBits where
  | half (p : BitVec 16)
  | full (w : BitVec 32)
  deriving DecidableEq, Repr

/-! ### Fields -/

/-- The fields of a 32-bit word that every format cuts it into (R173). -/
structure Fields32 where
  funct7 : BitVec 7
  rs2 : BitVec 5
  rs1 : BitVec 5
  funct3 : BitVec 3
  rd : BitVec 5
  opcode : BitVec 7
  deriving DecidableEq, Repr

/-- R173. -/
def Fields32.split (w : BitVec 32) : Fields32 where
  funct7 := w.extractLsb' 25 7
  rs2 := w.extractLsb' 20 5
  rs1 := w.extractLsb' 15 5
  funct3 := w.extractLsb' 12 3
  rd := w.extractLsb' 7 5
  opcode := w.extractLsb' 0 7

/-- The word with these fields. -/
def Fields32.join (f : Fields32) : BitVec 32 := f.funct7 ++ f.rs2 ++ f.rs1 ++ f.funct3 ++ f.rd ++ f.opcode

/-- The fields of a 16-bit parcel: the columns of the table of R210. -/
structure Fields16 where
  funct3 : BitVec 3
  b12 : BitVec 1
  b11_10 : BitVec 2
  b9_7 : BitVec 3
  b6_5 : BitVec 2
  b4_2 : BitVec 3
  quadrant : BitVec 2
  deriving DecidableEq, Repr

/-- R210. -/
def Fields16.split (p : BitVec 16) : Fields16 where
  funct3 := p.extractLsb' 13 3
  b12 := p.extractLsb' 12 1
  b11_10 := p.extractLsb' 10 2
  b9_7 := p.extractLsb' 7 3
  b6_5 := p.extractLsb' 5 2
  b4_2 := p.extractLsb' 2 3
  quadrant := p.extractLsb' 0 2

/-- The parcel with these fields. -/
def Fields16.join (f : Fields16) : BitVec 16 :=
  f.funct3 ++ f.b12 ++ f.b11_10 ++ f.b9_7 ++ f.b6_5 ++ f.b4_2 ++ f.quadrant

/-! ### Immediates of the 32-bit formats: gathered (decoder) and placed (encoder) -/

/-- inst[31:20] (R174). -/
def Fields32.immI (f : Fields32) : BitVec 12 := f.funct7 ++ f.rs2
/-- imm[11:5] = inst[31:25], imm[4:0] = inst[11:7] (R175). -/
def Fields32.immS (f : Fields32) : BitVec 12 := f.funct7 ++ f.rd
/-- imm[12] = inst[31], imm[11] = inst[7], imm[10:5] = inst[30:25], imm[4:1] = inst[11:8] (R176), as imm[12:1]. -/
def Fields32.immB (f : Fields32) : BitVec 12 :=
  f.funct7.extractLsb' 6 1 ++ f.rd.extractLsb' 0 1 ++ f.funct7.extractLsb' 0 6 ++ f.rd.extractLsb' 1 4
/-- inst[31:12] (R177). -/
def Fields32.immU (f : Fields32) : BitVec 20 := f.funct7 ++ f.rs2 ++ f.rs1 ++ f.funct3
/-- imm[20] = inst[31], imm[19:12] = inst[19:12], imm[11] = inst[20], imm[10:1] = inst[30:21] (R178), as imm[20:1]. -/
def Fields32.immJ (f : Fields32) : BitVec 20 :=
  f.funct7.extractLsb' 6 1 ++ f.rs1 ++ f.funct3 ++ f.rs2.extractLsb' 0 1 ++ f.funct7.extractLsb' 0 6 ++
    f.rs2.extractLsb' 1 4
/-- shamt = inst[25:20] (R179). -/
def Fields32.shamt6 (f : Fields32) : BitVec 6 := f.funct7.extractLsb' 0 1 ++ f.rs2
/-- inst[31:7], what a major opcode leaves open (R206). -/
def Fields32.above (f : Fields32) : BitVec 25 := f.funct7 ++ f.rs2 ++ f.rs1 ++ f.funct3 ++ f.rd

/-- R format (R173). -/
def Fields32.typeR (op : BitVec 7) (f3 : BitVec 3) (f7 : BitVec 7) (rd rs1 rs2 : RegIdx) : Fields32 :=
  ⟨f7, rs2, rs1, f3, rd, op⟩
/-- I format (R174); also the CSR format, whose `imm` is the CSR number (R180). -/
def Fields32.typeI (op : BitVec 7) (f3 : BitVec 3) (rd rs1 : RegIdx) (imm : BitVec 12) : Fields32 :=
  ⟨imm.extractLsb' 5 7, imm.extractLsb' 0 5, rs1, f3, rd, op⟩
/-- I-shift64 format (R179). -/
def Fields32.typeShift64 (op : BitVec 7) (f3 : BitVec 3) (f6 : BitVec 6) (rd rs1 : RegIdx) (sh : BitVec 6) : Fields32 :=
  ⟨f6 ++ sh.extractLsb' 5 1, sh.extractLsb' 0 5, rs1, f3, rd, op⟩
/-- S format (R175). -/
def Fields32.typeS (op : BitVec 7) (f3 : BitVec 3) (rs1 rs2 : RegIdx) (imm : BitVec 12) : Fields32 :=
  ⟨imm.extractLsb' 5 7, rs2, rs1, f3, imm.extractLsb' 0 5, op⟩
/-- B format (R176); `imm` is imm[12:1]. -/
def Fields32.typeB (op : BitVec 7) (f3 : BitVec 3) (rs1 rs2 : RegIdx) (imm : BitVec 12) : Fields32 :=
  ⟨imm.extractLsb' 11 1 ++ imm.extractLsb' 4 6, rs2, rs1, f3, imm.extractLsb' 0 4 ++ imm.extractLsb' 10 1, op⟩
/-- U format (R177). -/
def Fields32.typeU (op : BitVec 7) (rd : RegIdx) (imm : BitVec 20) : Fields32 :=
  ⟨imm.extractLsb' 13 7, imm.extractLsb' 8 5, imm.extractLsb' 3 5, imm.extractLsb' 0 3, rd, op⟩
/-- J format (R178); `imm` is imm[20:1]. -/
def Fields32.typeJ (op : BitVec 7) (rd : RegIdx) (imm : BitVec 20) : Fields32 :=
  ⟨imm.extractLsb' 19 1 ++ imm.extractLsb' 4 6, imm.extractLsb' 0 4 ++ imm.extractLsb' 10 1,
    imm.extractLsb' 14 5, imm.extractLsb' 11 3, rd, op⟩
/-- AMO format (R181). -/
def Fields32.typeAmo (f3 : BitVec 3) (f5 : BitVec 5) (rd rs1 rs2 : RegIdx) (aq rl : BitVec 1) : Fields32 :=
  ⟨f5 ++ aq ++ rl, rs2, rs1, f3, rd, 0x2F⟩
/-- A major opcode with everything above it open (R206). -/
def Fields32.typeAny (op : BitVec 7) (b : BitVec 25) : Fields32 :=
  ⟨b.extractLsb' 18 7, b.extractLsb' 13 5, b.extractLsb' 8 5, b.extractLsb' 5 3, b.extractLsb' 0 5, op⟩

/-! ### Registers and immediates of the 16-bit formats -/

/-- r = inst[11:7] (R211). -/
def Fields16.r (f : Fields16) : RegIdx := f.b11_10 ++ f.b9_7
/-- r2 = inst[6:2] (R211). -/
def Fields16.r2 (f : Fields16) : RegIdx := f.b6_5 ++ f.b4_2
/-- inst[12:2]. -/
def Fields16.above (f : Fields16) : BitVec 11 := f.b12 ++ f.b11_10 ++ f.b9_7 ++ f.b6_5 ++ f.b4_2
/-- imm6 and shamt of quadrants 1 and 2: inst[12], inst[6:2] (R440 to R455, R470). -/
def Fields16.imm6 (f : Fields16) : BitVec 6 := f.b12 ++ f.b6_5 ++ f.b4_2
/-- C.ADDI4SPN: imm[9:6] = inst[10:7], imm[5:4] = inst[12:11], imm[3] = inst[5], imm[2] = inst[6] (R431). -/
def Fields16.immSpn (f : Fields16) : BitVec 8 :=
  f.b11_10.extractLsb' 0 1 ++ f.b9_7 ++ f.b12 ++ f.b11_10.extractLsb' 1 1 ++ f.b6_5.extractLsb' 0 1 ++
    f.b6_5.extractLsb' 1 1
/-- C.LW, C.SW: imm[6] = inst[5], imm[5:3] = inst[12:10], imm[2] = inst[6] (R433). -/
def Fields16.immWord (f : Fields16) : BitVec 5 :=
  f.b6_5.extractLsb' 0 1 ++ f.b12 ++ f.b11_10 ++ f.b6_5.extractLsb' 1 1
/-- C.LD, C.SD: imm[7:6] = inst[6:5], imm[5:3] = inst[12:10] (R434). -/
def Fields16.immDouble (f : Fields16) : BitVec 5 := f.b6_5 ++ f.b12 ++ f.b11_10
/-- C.ADDI16SP: imm[9] = inst[12], imm[8:7] = inst[4:3], imm[6] = inst[5], imm[5] = inst[2], imm[4] = inst[6] (R451). -/
def Fields16.imm16sp (f : Fields16) : BitVec 6 :=
  f.b12 ++ f.b4_2.extractLsb' 1 2 ++ f.b6_5.extractLsb' 0 1 ++ f.b4_2.extractLsb' 0 1 ++ f.b6_5.extractLsb' 1 1
/-- C.J: imm[11] = inst[12], imm[10] = inst[8], imm[9:8] = inst[10:9], imm[7] = inst[6], imm[6] = inst[7],
imm[5] = inst[2], imm[4] = inst[11], imm[3:1] = inst[5:3] (R463). -/
def Fields16.immJump (f : Fields16) : BitVec 11 :=
  f.b12 ++ f.b9_7.extractLsb' 1 1 ++ f.b11_10.extractLsb' 0 1 ++ f.b9_7.extractLsb' 2 1 ++
    f.b6_5.extractLsb' 1 1 ++ f.b9_7.extractLsb' 0 1 ++ f.b4_2.extractLsb' 0 1 ++ f.b11_10.extractLsb' 1 1 ++
    f.b6_5.extractLsb' 0 1 ++ f.b4_2.extractLsb' 1 2
/-- C.BEQZ, C.BNEZ: imm[8] = inst[12], imm[7:6] = inst[6:5], imm[5] = inst[2], imm[4:3] = inst[11:10],
imm[2:1] = inst[4:3] (R464). -/
def Fields16.immBranch (f : Fields16) : BitVec 8 :=
  f.b12 ++ f.b6_5 ++ f.b4_2.extractLsb' 0 1 ++ f.b11_10 ++ f.b4_2.extractLsb' 1 2
/-- C.LWSP: imm[7:6] = inst[3:2], imm[5] = inst[12], imm[4:2] = inst[6:4] (R472). -/
def Fields16.immLwsp (f : Fields16) : BitVec 6 :=
  f.b4_2.extractLsb' 0 2 ++ f.b12 ++ f.b6_5 ++ f.b4_2.extractLsb' 2 1
/-- C.LDSP: imm[8:6] = inst[4:2], imm[5] = inst[12], imm[4:3] = inst[6:5] (R473). -/
def Fields16.immLdsp (f : Fields16) : BitVec 6 := f.b4_2 ++ f.b12 ++ f.b6_5
/-- C.SWSP: imm[7:6] = inst[8:7], imm[5:2] = inst[12:9] (R475). -/
def Fields16.immSwsp (f : Fields16) : BitVec 6 :=
  f.b9_7.extractLsb' 0 2 ++ f.b12 ++ f.b11_10 ++ f.b9_7.extractLsb' 2 1
/-- C.SDSP: imm[8:6] = inst[9:7], imm[5:3] = inst[12:10] (R476). -/
def Fields16.immSdsp (f : Fields16) : BitVec 6 := f.b9_7 ++ f.b12 ++ f.b11_10

/-- CI format: inst[12] and inst[6:2] hold a 6-bit immediate, inst[11:7] a register (R210). -/
def Fields16.typeCI (q : BitVec 2) (f3 : BitVec 3) (r : RegIdx) (imm : BitVec 6) : Fields16 :=
  ⟨f3, imm.extractLsb' 5 1, r.extractLsb' 3 2, r.extractLsb' 0 3, imm.extractLsb' 3 2, imm.extractLsb' 0 3, q⟩
/-- CR format (R210). -/
def Fields16.typeCR (f4 : BitVec 1) (r r2 : RegIdx) : Fields16 :=
  ⟨4, f4, r.extractLsb' 3 2, r.extractLsb' 0 3, r2.extractLsb' 3 2, r2.extractLsb' 0 3, 2⟩
/-- CB format with a shift amount or a 6-bit immediate (R453 to R455). -/
def Fields16.typeCBImm (f2 : BitVec 2) (r : CRegIdx) (imm : BitVec 6) : Fields16 :=
  ⟨4, imm.extractLsb' 5 1, f2, r, imm.extractLsb' 3 2, imm.extractLsb' 0 3, 1⟩
/-- CA format (R456 to R461). -/
def Fields16.typeCA (b : BitVec 1) (f2 : BitVec 2) (r r2 : CRegIdx) : Fields16 := ⟨4, b, 3, r, f2, r2, 1⟩
/-- CIW format of C.ADDI4SPN (R431). -/
def Fields16.typeSpn (rd : CRegIdx) (imm : BitVec 8) : Fields16 :=
  ⟨0, imm.extractLsb' 3 1, imm.extractLsb' 2 1 ++ imm.extractLsb' 7 1, imm.extractLsb' 4 3,
    imm.extractLsb' 0 1 ++ imm.extractLsb' 1 1, rd, 0⟩
/-- CL and CS formats of word accesses (R433, R437): `r` is inst[9:7], `r2` is inst[4:2]. -/
def Fields16.typeCWord (f3 : BitVec 3) (r r2 : CRegIdx) (imm : BitVec 5) : Fields16 :=
  ⟨f3, imm.extractLsb' 3 1, imm.extractLsb' 1 2, r, imm.extractLsb' 0 1 ++ imm.extractLsb' 4 1, r2, 0⟩
/-- CL and CS formats of doubleword accesses (R434, R438). -/
def Fields16.typeCDouble (f3 : BitVec 3) (r r2 : CRegIdx) (imm : BitVec 5) : Fields16 :=
  ⟨f3, imm.extractLsb' 2 1, imm.extractLsb' 0 2, r, imm.extractLsb' 3 2, r2, 0⟩
/-- C.ADDI16SP (R451). -/
def Fields16.type16sp (imm : BitVec 6) : Fields16 :=
  ⟨3, imm.extractLsb' 5 1, 0, 2, imm.extractLsb' 0 1 ++ imm.extractLsb' 2 1,
    imm.extractLsb' 3 2 ++ imm.extractLsb' 1 1, 1⟩
/-- CJ format (R463). -/
def Fields16.typeCJ (imm : BitVec 11) : Fields16 :=
  ⟨5, imm.extractLsb' 10 1, imm.extractLsb' 3 1 ++ imm.extractLsb' 8 1,
    imm.extractLsb' 7 1 ++ imm.extractLsb' 9 1 ++ imm.extractLsb' 5 1,
    imm.extractLsb' 6 1 ++ imm.extractLsb' 2 1, imm.extractLsb' 0 2 ++ imm.extractLsb' 4 1, 1⟩
/-- CB format of a branch (R464). -/
def Fields16.typeCBranch (f3 : BitVec 3) (r : CRegIdx) (imm : BitVec 8) : Fields16 :=
  ⟨f3, imm.extractLsb' 7 1, imm.extractLsb' 2 2, r, imm.extractLsb' 5 2,
    imm.extractLsb' 0 2 ++ imm.extractLsb' 4 1, 1⟩
/-- CI format of C.LWSP (R472). -/
def Fields16.typeLwsp (r : RegIdx) (imm : BitVec 6) : Fields16 :=
  ⟨2, imm.extractLsb' 3 1, r.extractLsb' 3 2, r.extractLsb' 0 3, imm.extractLsb' 1 2,
    imm.extractLsb' 0 1 ++ imm.extractLsb' 4 2, 2⟩
/-- CI format of C.LDSP (R473). -/
def Fields16.typeLdsp (r : RegIdx) (imm : BitVec 6) : Fields16 :=
  ⟨3, imm.extractLsb' 2 1, r.extractLsb' 3 2, r.extractLsb' 0 3, imm.extractLsb' 0 2, imm.extractLsb' 3 3, 2⟩
/-- CSS format of C.SWSP (R475). -/
def Fields16.typeSwsp (r2 : RegIdx) (imm : BitVec 6) : Fields16 :=
  ⟨6, imm.extractLsb' 3 1, imm.extractLsb' 1 2, imm.extractLsb' 0 1 ++ imm.extractLsb' 4 2,
    r2.extractLsb' 3 2, r2.extractLsb' 0 3, 2⟩
/-- CSS format of C.SDSP (R476). -/
def Fields16.typeSdsp (r2 : RegIdx) (imm : BitVec 6) : Fields16 :=
  ⟨7, imm.extractLsb' 2 1, imm.extractLsb' 0 2, imm.extractLsb' 3 3, r2.extractLsb' 3 2, r2.extractLsb' 0 3, 2⟩
/-- A quadrant and funct3 with inst[12:2] open. -/
def Fields16.typeAny (q : BitVec 2) (f3 : BitVec 3) (b : BitVec 11) : Fields16 :=
  ⟨f3, b.extractLsb' 10 1, b.extractLsb' 8 2, b.extractLsb' 5 3, b.extractLsb' 3 2, b.extractLsb' 0 3, q⟩

/-! ### The 32-bit opcode map (R190 to R206) -/

/-- The answer for a word in no row (R205). -/
def Fields32.unknown (f : Fields32) : Except Reject Instr := .error (.unknownEncoding f.join)

/-- R191. -/
def decodeLoad (f : Fields32) : Except Reject Instr :=
  match f.funct3 with
  | 0 => .ok (.lb f.rd f.rs1 f.immI)
  | 1 => .ok (.lh f.rd f.rs1 f.immI)
  | 2 => .ok (.lw f.rd f.rs1 f.immI)
  | 3 => .ok (.ld f.rd f.rs1 f.immI)
  | 4 => .ok (.lbu f.rd f.rs1 f.immI)
  | 5 => .ok (.lhu f.rd f.rs1 f.immI)
  | 6 => .ok (.lwu f.rd f.rs1 f.immI)
  | _ => f.unknown

/-- R192. -/
def decodeMiscMem (f : Fields32) : Except Reject Instr :=
  match f.funct3 with
  | 0 => .ok (.fence (f.funct7.extractLsb' 3 4) (f.funct7.extractLsb' 0 3 ++ f.rs2.extractLsb' 4 1)
      (f.rs2.extractLsb' 0 4) f.rs1 f.rd)
  | 1 => .ok (.fenceI f.immI f.rs1 f.rd)
  | _ => f.unknown

/-- R193. -/
def decodeOpImm (f : Fields32) : Except Reject Instr :=
  match f.funct3 with
  | 0 => .ok (.addi f.rd f.rs1 f.immI)
  | 1 =>
    match f.funct7.extractLsb' 1 6 with
    | 0 => .ok (.slli f.rd f.rs1 f.shamt6)
    | _ => f.unknown
  | 2 => .ok (.slti f.rd f.rs1 f.immI)
  | 3 => .ok (.sltiu f.rd f.rs1 f.immI)
  | 4 => .ok (.xori f.rd f.rs1 f.immI)
  | 5 =>
    match f.funct7.extractLsb' 1 6 with
    | 0 => .ok (.srli f.rd f.rs1 f.shamt6)
    | 0x10 => .ok (.srai f.rd f.rs1 f.shamt6)
    | _ => f.unknown
  | 6 => .ok (.ori f.rd f.rs1 f.immI)
  | _ => .ok (.andi f.rd f.rs1 f.immI)

/-- R195. -/
def decodeOpImm32 (f : Fields32) : Except Reject Instr :=
  match f.funct3, f.funct7 with
  | 0, _ => .ok (.addiw f.rd f.rs1 f.immI)
  | 1, 0 => .ok (.slliw f.rd f.rs1 f.rs2)
  | 5, 0 => .ok (.srliw f.rd f.rs1 f.rs2)
  | 5, 0x20 => .ok (.sraiw f.rd f.rs1 f.rs2)
  | _, _ => f.unknown

/-- R196. -/
def decodeStore (f : Fields32) : Except Reject Instr :=
  match f.funct3 with
  | 0 => .ok (.sb f.rs1 f.rs2 f.immS)
  | 1 => .ok (.sh f.rs1 f.rs2 f.immS)
  | 2 => .ok (.sw f.rs1 f.rs2 f.immS)
  | 3 => .ok (.sd f.rs1 f.rs2 f.immS)
  | _ => f.unknown

/-- R197: `funct5` = inst[31:27], `aq` = inst[26], `rl` = inst[25] (R181). -/
def decodeAmo (f : Fields32) : Except Reject Instr :=
  let funct5 := f.funct7.extractLsb' 2 5
  let aq := f.funct7.extractLsb' 1 1
  let rl := f.funct7.extractLsb' 0 1
  match f.funct3 with
  | 2 =>
    match funct5 with
    | 0 => .ok (.amoaddW f.rd f.rs1 f.rs2 aq rl)
    | 1 => .ok (.amoswapW f.rd f.rs1 f.rs2 aq rl)
    | 2 =>
      match f.rs2 with
      | 0 => .ok (.lrW f.rd f.rs1 aq rl)
      | _ => f.unknown
    | 3 => .ok (.scW f.rd f.rs1 f.rs2 aq rl)
    | 4 => .ok (.amoxorW f.rd f.rs1 f.rs2 aq rl)
    | 8 => .ok (.amoorW f.rd f.rs1 f.rs2 aq rl)
    | 12 => .ok (.amoandW f.rd f.rs1 f.rs2 aq rl)
    | 16 => .ok (.amominW f.rd f.rs1 f.rs2 aq rl)
    | 20 => .ok (.amomaxW f.rd f.rs1 f.rs2 aq rl)
    | 24 => .ok (.amominuW f.rd f.rs1 f.rs2 aq rl)
    | 28 => .ok (.amomaxuW f.rd f.rs1 f.rs2 aq rl)
    | _ => f.unknown
  | 3 =>
    match funct5 with
    | 0 => .ok (.amoaddD f.rd f.rs1 f.rs2 aq rl)
    | 1 => .ok (.amoswapD f.rd f.rs1 f.rs2 aq rl)
    | 2 =>
      match f.rs2 with
      | 0 => .ok (.lrD f.rd f.rs1 aq rl)
      | _ => f.unknown
    | 3 => .ok (.scD f.rd f.rs1 f.rs2 aq rl)
    | 4 => .ok (.amoxorD f.rd f.rs1 f.rs2 aq rl)
    | 8 => .ok (.amoorD f.rd f.rs1 f.rs2 aq rl)
    | 12 => .ok (.amoandD f.rd f.rs1 f.rs2 aq rl)
    | 16 => .ok (.amominD f.rd f.rs1 f.rs2 aq rl)
    | 20 => .ok (.amomaxD f.rd f.rs1 f.rs2 aq rl)
    | 24 => .ok (.amominuD f.rd f.rs1 f.rs2 aq rl)
    | 28 => .ok (.amomaxuD f.rd f.rs1 f.rs2 aq rl)
    | _ => f.unknown
  | _ => f.unknown

/-- R198. -/
def decodeOp (f : Fields32) : Except Reject Instr :=
  match f.funct7 with
  | 0 =>
    match f.funct3 with
    | 0 => .ok (.add f.rd f.rs1 f.rs2)
    | 1 => .ok (.sll f.rd f.rs1 f.rs2)
    | 2 => .ok (.slt f.rd f.rs1 f.rs2)
    | 3 => .ok (.sltu f.rd f.rs1 f.rs2)
    | 4 => .ok (.xor f.rd f.rs1 f.rs2)
    | 5 => .ok (.srl f.rd f.rs1 f.rs2)
    | 6 => .ok (.or f.rd f.rs1 f.rs2)
    | _ => .ok (.and f.rd f.rs1 f.rs2)
  | 0x20 =>
    match f.funct3 with
    | 0 => .ok (.sub f.rd f.rs1 f.rs2)
    | 5 => .ok (.sra f.rd f.rs1 f.rs2)
    | _ => f.unknown
  | 1 =>
    match f.funct3 with
    | 0 => .ok (.mul f.rd f.rs1 f.rs2)
    | 1 => .ok (.mulh f.rd f.rs1 f.rs2)
    | 2 => .ok (.mulhsu f.rd f.rs1 f.rs2)
    | 3 => .ok (.mulhu f.rd f.rs1 f.rs2)
    | 4 => .ok (.div f.rd f.rs1 f.rs2)
    | 5 => .ok (.divu f.rd f.rs1 f.rs2)
    | 6 => .ok (.rem f.rd f.rs1 f.rs2)
    | _ => .ok (.remu f.rd f.rs1 f.rs2)
  | _ => f.unknown

/-- R199. -/
def decodeOp32 (f : Fields32) : Except Reject Instr :=
  match f.funct7, f.funct3 with
  | 0, 0 => .ok (.addw f.rd f.rs1 f.rs2)
  | 0, 1 => .ok (.sllw f.rd f.rs1 f.rs2)
  | 0, 5 => .ok (.srlw f.rd f.rs1 f.rs2)
  | 0x20, 0 => .ok (.subw f.rd f.rs1 f.rs2)
  | 0x20, 5 => .ok (.sraw f.rd f.rs1 f.rs2)
  | 1, 0 => .ok (.mulw f.rd f.rs1 f.rs2)
  | 1, 4 => .ok (.divw f.rd f.rs1 f.rs2)
  | 1, 5 => .ok (.divuw f.rd f.rs1 f.rs2)
  | 1, 6 => .ok (.remw f.rd f.rs1 f.rs2)
  | 1, 7 => .ok (.remuw f.rd f.rs1 f.rs2)
  | _, _ => f.unknown

/-- R200. -/
def decodeBranch (f : Fields32) : Except Reject Instr :=
  match f.funct3 with
  | 0 => .ok (.beq f.rs1 f.rs2 f.immB)
  | 1 => .ok (.bne f.rs1 f.rs2 f.immB)
  | 4 => .ok (.blt f.rs1 f.rs2 f.immB)
  | 5 => .ok (.bge f.rs1 f.rs2 f.immB)
  | 6 => .ok (.bltu f.rs1 f.rs2 f.immB)
  | 7 => .ok (.bgeu f.rs1 f.rs2 f.immB)
  | _ => f.unknown

/-- R201, funct3 = 000: six fixed words and SFENCE.VMA. -/
def decodePriv (f : Fields32) : Except Reject Instr :=
  match f.funct7, f.rs2, f.rs1, f.rd with
  | 0x00, 0, 0, 0 => .ok .ecall
  | 0x00, 1, 0, 0 => .ok .ebreak
  | 0x00, 2, 0, 0 => .ok .uret
  | 0x08, 2, 0, 0 => .ok .sret
  | 0x18, 2, 0, 0 => .ok .mret
  | 0x08, 5, 0, 0 => .ok .wfi
  | 0x09, _, _, 0 => .ok (.sfenceVma f.rs1 f.rs2)
  | _, _, _, _ => f.unknown

/-- R201: the register field of the immediate forms is the 5-bit immediate (R180). -/
def decodeSystem (f : Fields32) : Except Reject Instr :=
  match f.funct3 with
  | 0 => decodePriv f
  | 1 => .ok (.csrrw f.rd f.rs1 f.immI)
  | 2 => .ok (.csrrs f.rd f.rs1 f.immI)
  | 3 => .ok (.csrrc f.rd f.rs1 f.immI)
  | 5 => .ok (.csrrwi f.rd f.rs1 f.immI)
  | 6 => .ok (.csrrsi f.rd f.rs1 f.immI)
  | 7 => .ok (.csrrci f.rd f.rs1 f.immI)
  | _ => f.unknown

/-- The major opcodes (R190, R194, R200, R206). -/
def decodeFields32 (f : Fields32) : Except Reject Instr :=
  match f.opcode with
  | 0x03 => decodeLoad f
  | 0x0F => decodeMiscMem f
  | 0x13 => decodeOpImm f
  | 0x17 => .ok (.auipc f.rd f.immU)
  | 0x1B => decodeOpImm32 f
  | 0x23 => decodeStore f
  | 0x2F => decodeAmo f
  | 0x33 => decodeOp f
  | 0x37 => .ok (.lui f.rd f.immU)
  | 0x3B => decodeOp32 f
  | 0x63 => decodeBranch f
  | 0x67 =>
    match f.funct3 with
    | 0 => .ok (.jalr f.rd f.rs1 f.immI)
    | _ => f.unknown
  | 0x6F => .ok (.jal f.rd f.immJ)
  | 0x73 => decodeSystem f
  | 0x07 => .ok (.loadFp f.above)
  | 0x27 => .ok (.storeFp f.above)
  | 0x43 => .ok (.fmadd f.above)
  | 0x47 => .ok (.fmsub f.above)
  | 0x4B => .ok (.fnmsub f.above)
  | 0x4F => .ok (.fnmadd f.above)
  | 0x53 => .ok (.opFp f.above)
  | _ => f.unknown

/-- The 32-bit path of the decoder (R170, R171). -/
def decode32 (w : BitVec 32) : Except Reject Instr := decodeFields32 (.split w)

/-! ### The 16-bit quadrants (R212 to R216) -/

/-- The answer for a parcel in no row (R205). -/
def Fields16.unknown (f : Fields16) : Except Reject Instr := .error (.unknownEncoding (f.join.setWidth 32))

/-- R212; the all-zero parcel is R439, a zero immediate otherwise reserved (R216, R431). -/
def decodeQuadrant0 (f : Fields16) : Except Reject Instr :=
  match f.funct3 with
  | 0 =>
    if f.immSpn = 0 then
      if f.b4_2 = 0 then .ok .cIllegal else .error .reservedCompressed
    else .ok (.cAddi4spn f.b4_2 f.immSpn)
  | 1 => .ok (.cFld f.above)
  | 2 => .ok (.cLw f.b4_2 f.b9_7 f.immWord)
  | 3 => .ok (.cLd f.b4_2 f.b9_7 f.immDouble)
  | 4 => .ok (.cReservedQ0 f.above)
  | 5 => .ok (.cFsd f.above)
  | 6 => .ok (.cSw f.b9_7 f.b4_2 f.immWord)
  | _ => .ok (.cSd f.b9_7 f.b4_2 f.immDouble)

/-- R213, funct3 = 100: the arithmetic forms. -/
def decodeQuadrant1Alu (f : Fields16) : Except Reject Instr :=
  match f.b11_10 with
  | 0 => .ok (.cSrli f.b9_7 f.imm6)
  | 1 => .ok (.cSrai f.b9_7 f.imm6)
  | 2 => .ok (.cAndi f.b9_7 f.imm6)
  | _ =>
    match f.b12, f.b6_5 with
    | 0, 0 => .ok (.cSub f.b9_7 f.b4_2)
    | 0, 1 => .ok (.cXor f.b9_7 f.b4_2)
    | 0, 2 => .ok (.cOr f.b9_7 f.b4_2)
    | 0, _ => .ok (.cAnd f.b9_7 f.b4_2)
    | _, 0 => .ok (.cSubw f.b9_7 f.b4_2)
    | _, 1 => .ok (.cAddw f.b9_7 f.b4_2)
    | _, _ => .ok (.cReservedQ1 f.b9_7 (f.b6_5.extractLsb' 0 1) f.b4_2)

/-- R213, R216. -/
def decodeQuadrant1 (f : Fields16) : Except Reject Instr :=
  match f.funct3 with
  | 0 => if f.r = 0 then .ok (.cNop f.imm6) else .ok (.cAddi f.r f.imm6)
  | 1 => if f.r = 0 then .error .reservedCompressed else .ok (.cAddiw f.r f.imm6)
  | 2 => .ok (.cLi f.r f.imm6)
  | 3 =>
    if f.r = 2 then
      if f.imm16sp = 0 then .error .reservedCompressed else .ok (.cAddi16sp f.imm16sp)
    else
      if f.imm6 = 0 then .error .reservedCompressed else .ok (.cLui f.r f.imm6)
  | 4 => decodeQuadrant1Alu f
  | 5 => .ok (.cJ f.immJump)
  | 6 => .ok (.cBeqz f.b9_7 f.immBranch)
  | _ => .ok (.cBnez f.b9_7 f.immBranch)

/-- R214, funct3 = 100: told apart by whether rs1 and rs2 are zero. -/
def decodeQuadrant2Reg (f : Fields16) : Except Reject Instr :=
  if f.r2 = 0 then
    match f.b12 with
    | 0 => if f.r = 0 then .error .reservedCompressed else .ok (.cJr f.r)
    | _ => if f.r = 0 then .ok .cEbreak else .ok (.cJalr f.r)
  else
    match f.b12 with
    | 0 => .ok (.cMv f.r f.r2)
    | _ => .ok (.cAdd f.r f.r2)

/-- R214, R216. -/
def decodeQuadrant2 (f : Fields16) : Except Reject Instr :=
  match f.funct3 with
  | 0 => .ok (.cSlli f.r f.imm6)
  | 1 => .ok (.cFldsp f.above)
  | 2 => if f.r = 0 then .error .reservedCompressed else .ok (.cLwsp f.r f.immLwsp)
  | 3 => if f.r = 0 then .error .reservedCompressed else .ok (.cLdsp f.r f.immLdsp)
  | 4 => decodeQuadrant2Reg f
  | 5 => .ok (.cFsdsp f.above)
  | 6 => .ok (.cSwsp f.r2 f.immSwsp)
  | _ => .ok (.cSdsp f.r2 f.immSdsp)

/-- R210: by quadrant; inst[1:0] = 11 is no 16-bit instruction. -/
def decodeFields16 (f : Fields16) : Except Reject Instr :=
  match f.quadrant with
  | 0 => decodeQuadrant0 f
  | 1 => decodeQuadrant1 f
  | 2 => decodeQuadrant2 f
  | _ => f.unknown

/-- The 16-bit path of the decoder (R210). -/
def decode16 (p : BitVec 16) : Except Reject Instr := decodeFields16 (.split p)

/-- `Decode(inst)` of R503 step 3. -/
def decode : InstBits → Except Reject Instr
  | .half p => decode16 p
  | .full w => decode32 w

/-- R170: inst[1:0] = 11 in the first parcel makes a 32-bit instruction. -/
def isLong (p : BitVec 16) : Bool := p.extractLsb' 0 2 == 3

/-- A decoded head paired with the bytes after it. -/
def headOf (rest : List Byte) : Except Reject Instr → Except BytesReject (Instr × List Byte)
  | .ok i => .ok (i, rest)
  | .error r => .error (.rejected r)

/-- The instruction at the head of a list of bytes, and the rest of the list: little-endian parcels (R110, R142). -/
def decodeBytes : List Byte → Except BytesReject (Instr × List Byte)
  | b0 :: b1 :: rest =>
    let p0 : BitVec 16 := b1 ++ b0
    if isLong p0 then
      match rest with
      | b2 :: b3 :: rest' => headOf rest' (decode (.full ((b3 ++ b2 : BitVec 16) ++ p0)))
      | _ => .error .truncated
    else headOf rest (decode (.half p0))
  | _ => .error .truncated

/-- The bytes, lowest address first, of an instruction whose bits are `w` and whose bits from `nbits` on are 0. -/
def tableBytes (nbits w : Nat) : List Byte :=
  let v := w % 2 ^ nbits
  [BitVec.ofNat 8 v, BitVec.ofNat 8 (v / 2 ^ 8), BitVec.ofNat 8 (v / 2 ^ 16), BitVec.ofNat 8 (v / 2 ^ 24)]

/-- The instruction this decoder reads from a word of spec/opcode_table.json. -/
def decodeTableWord (nbits w : Nat) : Option Instr :=
  match decodeBytes (tableBytes nbits w) with
  | .ok (i, _) => some i
  | .error _ => none

/-! ### The encoder -/

/-- The bits of an instruction, from the same tables; for a well-formed one `decode` gives it back. -/
def encode : Instr → InstBits
  | .lui rd imm => .full (Fields32.typeU 0x37 rd imm).join
  | .auipc rd imm => .full (Fields32.typeU 0x17 rd imm).join
  | .addi rd rs1 imm => .full (Fields32.typeI 0x13 0 rd rs1 imm).join
  | .slti rd rs1 imm => .full (Fields32.typeI 0x13 2 rd rs1 imm).join
  | .sltiu rd rs1 imm => .full (Fields32.typeI 0x13 3 rd rs1 imm).join
  | .xori rd rs1 imm => .full (Fields32.typeI 0x13 4 rd rs1 imm).join
  | .ori rd rs1 imm => .full (Fields32.typeI 0x13 6 rd rs1 imm).join
  | .andi rd rs1 imm => .full (Fields32.typeI 0x13 7 rd rs1 imm).join
  | .slli rd rs1 shamt => .full (Fields32.typeShift64 0x13 1 0x00 rd rs1 shamt).join
  | .srli rd rs1 shamt => .full (Fields32.typeShift64 0x13 5 0x00 rd rs1 shamt).join
  | .srai rd rs1 shamt => .full (Fields32.typeShift64 0x13 5 0x10 rd rs1 shamt).join
  | .addiw rd rs1 imm => .full (Fields32.typeI 0x1B 0 rd rs1 imm).join
  | .slliw rd rs1 shamt => .full (Fields32.typeR 0x1B 1 0x00 rd rs1 shamt).join
  | .srliw rd rs1 shamt => .full (Fields32.typeR 0x1B 5 0x00 rd rs1 shamt).join
  | .sraiw rd rs1 shamt => .full (Fields32.typeR 0x1B 5 0x20 rd rs1 shamt).join
  | .add rd rs1 rs2 => .full (Fields32.typeR 0x33 0 0x00 rd rs1 rs2).join
  | .sub rd rs1 rs2 => .full (Fields32.typeR 0x33 0 0x20 rd rs1 rs2).join
  | .sll rd rs1 rs2 => .full (Fields32.typeR 0x33 1 0x00 rd rs1 rs2).join
  | .slt rd rs1 rs2 => .full (Fields32.typeR 0x33 2 0x00 rd rs1 rs2).join
  | .sltu rd rs1 rs2 => .full (Fields32.typeR 0x33 3 0x00 rd rs1 rs2).join
  | .xor rd rs1 rs2 => .full (Fields32.typeR 0x33 4 0x00 rd rs1 rs2).join
  | .srl rd rs1 rs2 => .full (Fields32.typeR 0x33 5 0x00 rd rs1 rs2).join
  | .sra rd rs1 rs2 => .full (Fields32.typeR 0x33 5 0x20 rd rs1 rs2).join
  | .or rd rs1 rs2 => .full (Fields32.typeR 0x33 6 0x00 rd rs1 rs2).join
  | .and rd rs1 rs2 => .full (Fields32.typeR 0x33 7 0x00 rd rs1 rs2).join
  | .addw rd rs1 rs2 => .full (Fields32.typeR 0x3B 0 0x00 rd rs1 rs2).join
  | .subw rd rs1 rs2 => .full (Fields32.typeR 0x3B 0 0x20 rd rs1 rs2).join
  | .sllw rd rs1 rs2 => .full (Fields32.typeR 0x3B 1 0x00 rd rs1 rs2).join
  | .srlw rd rs1 rs2 => .full (Fields32.typeR 0x3B 5 0x00 rd rs1 rs2).join
  | .sraw rd rs1 rs2 => .full (Fields32.typeR 0x3B 5 0x20 rd rs1 rs2).join
  | .jal rd imm => .full (Fields32.typeJ 0x6F rd imm).join
  | .jalr rd rs1 imm => .full (Fields32.typeI 0x67 0 rd rs1 imm).join
  | .beq rs1 rs2 imm => .full (Fields32.typeB 0x63 0 rs1 rs2 imm).join
  | .bne rs1 rs2 imm => .full (Fields32.typeB 0x63 1 rs1 rs2 imm).join
  | .blt rs1 rs2 imm => .full (Fields32.typeB 0x63 4 rs1 rs2 imm).join
  | .bge rs1 rs2 imm => .full (Fields32.typeB 0x63 5 rs1 rs2 imm).join
  | .bltu rs1 rs2 imm => .full (Fields32.typeB 0x63 6 rs1 rs2 imm).join
  | .bgeu rs1 rs2 imm => .full (Fields32.typeB 0x63 7 rs1 rs2 imm).join
  | .lb rd rs1 imm => .full (Fields32.typeI 0x03 0 rd rs1 imm).join
  | .lh rd rs1 imm => .full (Fields32.typeI 0x03 1 rd rs1 imm).join
  | .lw rd rs1 imm => .full (Fields32.typeI 0x03 2 rd rs1 imm).join
  | .ld rd rs1 imm => .full (Fields32.typeI 0x03 3 rd rs1 imm).join
  | .lbu rd rs1 imm => .full (Fields32.typeI 0x03 4 rd rs1 imm).join
  | .lhu rd rs1 imm => .full (Fields32.typeI 0x03 5 rd rs1 imm).join
  | .lwu rd rs1 imm => .full (Fields32.typeI 0x03 6 rd rs1 imm).join
  | .sb rs1 rs2 imm => .full (Fields32.typeS 0x23 0 rs1 rs2 imm).join
  | .sh rs1 rs2 imm => .full (Fields32.typeS 0x23 1 rs1 rs2 imm).join
  | .sw rs1 rs2 imm => .full (Fields32.typeS 0x23 2 rs1 rs2 imm).join
  | .sd rs1 rs2 imm => .full (Fields32.typeS 0x23 3 rs1 rs2 imm).join
  | .mul rd rs1 rs2 => .full (Fields32.typeR 0x33 0 0x01 rd rs1 rs2).join
  | .mulh rd rs1 rs2 => .full (Fields32.typeR 0x33 1 0x01 rd rs1 rs2).join
  | .mulhsu rd rs1 rs2 => .full (Fields32.typeR 0x33 2 0x01 rd rs1 rs2).join
  | .mulhu rd rs1 rs2 => .full (Fields32.typeR 0x33 3 0x01 rd rs1 rs2).join
  | .mulw rd rs1 rs2 => .full (Fields32.typeR 0x3B 0 0x01 rd rs1 rs2).join
  | .div rd rs1 rs2 => .full (Fields32.typeR 0x33 4 0x01 rd rs1 rs2).join
  | .divu rd rs1 rs2 => .full (Fields32.typeR 0x33 5 0x01 rd rs1 rs2).join
  | .rem rd rs1 rs2 => .full (Fields32.typeR 0x33 6 0x01 rd rs1 rs2).join
  | .remu rd rs1 rs2 => .full (Fields32.typeR 0x33 7 0x01 rd rs1 rs2).join
  | .divw rd rs1 rs2 => .full (Fields32.typeR 0x3B 4 0x01 rd rs1 rs2).join
  | .divuw rd rs1 rs2 => .full (Fields32.typeR 0x3B 5 0x01 rd rs1 rs2).join
  | .remw rd rs1 rs2 => .full (Fields32.typeR 0x3B 6 0x01 rd rs1 rs2).join
  | .remuw rd rs1 rs2 => .full (Fields32.typeR 0x3B 7 0x01 rd rs1 rs2).join
  | .lrW rd rs1 aq rl => .full (Fields32.typeAmo 2 0x02 rd rs1 0 aq rl).join
  | .lrD rd rs1 aq rl => .full (Fields32.typeAmo 3 0x02 rd rs1 0 aq rl).join
  | .scW rd rs1 rs2 aq rl => .full (Fields32.typeAmo 2 0x03 rd rs1 rs2 aq rl).join
  | .scD rd rs1 rs2 aq rl => .full (Fields32.typeAmo 3 0x03 rd rs1 rs2 aq rl).join
  | .amoswapW rd rs1 rs2 aq rl => .full (Fields32.typeAmo 2 0x01 rd rs1 rs2 aq rl).join
  | .amoaddW rd rs1 rs2 aq rl => .full (Fields32.typeAmo 2 0x00 rd rs1 rs2 aq rl).join
  | .amoxorW rd rs1 rs2 aq rl => .full (Fields32.typeAmo 2 0x04 rd rs1 rs2 aq rl).join
  | .amoandW rd rs1 rs2 aq rl => .full (Fields32.typeAmo 2 0x0C rd rs1 rs2 aq rl).join
  | .amoorW rd rs1 rs2 aq rl => .full (Fields32.typeAmo 2 0x08 rd rs1 rs2 aq rl).join
  | .amominW rd rs1 rs2 aq rl => .full (Fields32.typeAmo 2 0x10 rd rs1 rs2 aq rl).join
  | .amomaxW rd rs1 rs2 aq rl => .full (Fields32.typeAmo 2 0x14 rd rs1 rs2 aq rl).join
  | .amominuW rd rs1 rs2 aq rl => .full (Fields32.typeAmo 2 0x18 rd rs1 rs2 aq rl).join
  | .amomaxuW rd rs1 rs2 aq rl => .full (Fields32.typeAmo 2 0x1C rd rs1 rs2 aq rl).join
  | .amoswapD rd rs1 rs2 aq rl => .full (Fields32.typeAmo 3 0x01 rd rs1 rs2 aq rl).join
  | .amoaddD rd rs1 rs2 aq rl => .full (Fields32.typeAmo 3 0x00 rd rs1 rs2 aq rl).join
  | .amoxorD rd rs1 rs2 aq rl => .full (Fields32.typeAmo 3 0x04 rd rs1 rs2 aq rl).join
  | .amoandD rd rs1 rs2 aq rl => .full (Fields32.typeAmo 3 0x0C rd rs1 rs2 aq rl).join
  | .amoorD rd rs1 rs2 aq rl => .full (Fields32.typeAmo 3 0x08 rd rs1 rs2 aq rl).join
  | .amominD rd rs1 rs2 aq rl => .full (Fields32.typeAmo 3 0x10 rd rs1 rs2 aq rl).join
  | .amomaxD rd rs1 rs2 aq rl => .full (Fields32.typeAmo 3 0x14 rd rs1 rs2 aq rl).join
  | .amominuD rd rs1 rs2 aq rl => .full (Fields32.typeAmo 3 0x18 rd rs1 rs2 aq rl).join
  | .amomaxuD rd rs1 rs2 aq rl => .full (Fields32.typeAmo 3 0x1C rd rs1 rs2 aq rl).join
  | .csrrw rd rs1 csr => .full (Fields32.typeI 0x73 1 rd rs1 csr).join
  | .csrrs rd rs1 csr => .full (Fields32.typeI 0x73 2 rd rs1 csr).join
  | .csrrc rd rs1 csr => .full (Fields32.typeI 0x73 3 rd rs1 csr).join
  | .csrrwi rd uimm csr => .full (Fields32.typeI 0x73 5 rd uimm csr).join
  | .csrrsi rd uimm csr => .full (Fields32.typeI 0x73 6 rd uimm csr).join
  | .csrrci rd uimm csr => .full (Fields32.typeI 0x73 7 rd uimm csr).join
  | .ecall => .full (Fields32.typeR 0x73 0 0x00 0 0 0).join
  | .ebreak => .full (Fields32.typeR 0x73 0 0x00 0 0 1).join
  | .uret => .full (Fields32.typeR 0x73 0 0x00 0 0 2).join
  | .sret => .full (Fields32.typeR 0x73 0 0x08 0 0 2).join
  | .mret => .full (Fields32.typeR 0x73 0 0x18 0 0 2).join
  | .wfi => .full (Fields32.typeR 0x73 0 0x08 0 0 5).join
  | .sfenceVma rs1 rs2 => .full (Fields32.typeR 0x73 0 0x09 0 rs1 rs2).join
  | .fence fm pred succ rs1 rd => .full (Fields32.mk (fm ++ pred.extractLsb' 1 3) (pred.extractLsb' 0 1 ++ succ) rs1 0 rd 0x0F).join
  | .fenceI imm rs1 rd => .full (Fields32.typeI 0x0F 1 rd rs1 imm).join
  | .loadFp bits => .full (Fields32.typeAny 0x07 bits).join
  | .storeFp bits => .full (Fields32.typeAny 0x27 bits).join
  | .fmadd bits => .full (Fields32.typeAny 0x43 bits).join
  | .fmsub bits => .full (Fields32.typeAny 0x47 bits).join
  | .fnmsub bits => .full (Fields32.typeAny 0x4B bits).join
  | .fnmadd bits => .full (Fields32.typeAny 0x4F bits).join
  | .opFp bits => .full (Fields32.typeAny 0x53 bits).join
  | .cIllegal => .half (Fields16.mk 0 0 0 0 0 0 0).join
  | .cAddi4spn rd imm => .half (Fields16.typeSpn rd imm).join
  | .cFld bits => .half (Fields16.typeAny 0 1 bits).join
  | .cLw rd rs1 imm => .half (Fields16.typeCWord 2 rs1 rd imm).join
  | .cLd rd rs1 imm => .half (Fields16.typeCDouble 3 rs1 rd imm).join
  | .cReservedQ0 bits => .half (Fields16.typeAny 0 4 bits).join
  | .cFsd bits => .half (Fields16.typeAny 0 5 bits).join
  | .cSw rs1 rs2 imm => .half (Fields16.typeCWord 6 rs1 rs2 imm).join
  | .cSd rs1 rs2 imm => .half (Fields16.typeCDouble 7 rs1 rs2 imm).join
  | .cNop imm => .half (Fields16.typeCI 1 0 0 imm).join
  | .cAddi rd imm => .half (Fields16.typeCI 1 0 rd imm).join
  | .cAddiw rd imm => .half (Fields16.typeCI 1 1 rd imm).join
  | .cLi rd imm => .half (Fields16.typeCI 1 2 rd imm).join
  | .cAddi16sp imm => .half (Fields16.type16sp imm).join
  | .cLui rd imm => .half (Fields16.typeCI 1 3 rd imm).join
  | .cSrli rd shamt => .half (Fields16.typeCBImm 0 rd shamt).join
  | .cSrai rd shamt => .half (Fields16.typeCBImm 1 rd shamt).join
  | .cAndi rd imm => .half (Fields16.typeCBImm 2 rd imm).join
  | .cSub rd rs2 => .half (Fields16.typeCA 0 0 rd rs2).join
  | .cXor rd rs2 => .half (Fields16.typeCA 0 1 rd rs2).join
  | .cOr rd rs2 => .half (Fields16.typeCA 0 2 rd rs2).join
  | .cAnd rd rs2 => .half (Fields16.typeCA 0 3 rd rs2).join
  | .cSubw rd rs2 => .half (Fields16.typeCA 1 0 rd rs2).join
  | .cAddw rd rs2 => .half (Fields16.typeCA 1 1 rd rs2).join
  | .cReservedQ1 rd low rs2 => .half (Fields16.typeCA 1 (1#1 ++ low) rd rs2).join
  | .cJ imm => .half (Fields16.typeCJ imm).join
  | .cBeqz rs1 imm => .half (Fields16.typeCBranch 6 rs1 imm).join
  | .cBnez rs1 imm => .half (Fields16.typeCBranch 7 rs1 imm).join
  | .cSlli rd shamt => .half (Fields16.typeCI 2 0 rd shamt).join
  | .cFldsp bits => .half (Fields16.typeAny 2 1 bits).join
  | .cLwsp rd imm => .half (Fields16.typeLwsp rd imm).join
  | .cLdsp rd imm => .half (Fields16.typeLdsp rd imm).join
  | .cFsdsp bits => .half (Fields16.typeAny 2 5 bits).join
  | .cSwsp rs2 imm => .half (Fields16.typeSwsp rs2 imm).join
  | .cSdsp rs2 imm => .half (Fields16.typeSdsp rs2 imm).join
  | .cEbreak => .half (Fields16.typeCR 1 0 0).join
  | .cJalr rs1 => .half (Fields16.typeCR 1 rs1 0).join
  | .cJr rs1 => .half (Fields16.typeCR 0 rs1 0).join
  | .cMv rd rs2 => .half (Fields16.typeCR 0 rd rs2).join
  | .cAdd rd rs2 => .half (Fields16.typeCR 1 rd rs2).join

/-- The bytes of an instruction, lowest address first (R110, R142). -/
def InstBits.bytes : InstBits → List Byte
  | .half p => [p.extractLsb' 0 8, p.extractLsb' 8 8]
  | .full w => [w.extractLsb' 0 8, w.extractLsb' 8 8, w.extractLsb' 16 8, w.extractLsb' 24 8]

end Sys2Proof
end

