-- ==== Sys2Proof/Machine/Compressed.lean ====
section
/-! DEFINITION. C extension (spec/47_c_extension.md, R430 to R481): each row is its 32-bit operation with `npc = pc + 2`. -/

namespace Sys2Proof.Machine

/-- The fault of a parcel of an unassigned row, with its bits zero-extended (R205, R435, R439, R462). -/
def unassigned (i : Instr) : Fault :=
  match encode i with
  | .half p => .unknownEncoding (p.setWidth 32)
  | .full w => .unknownEncoding w

/-- C.ILLEGAL (R439). -/
def execCIllegal (_s : State) : Host.Outcome State Fault Refusal :=
  .fault (unassigned .cIllegal)

/-- C.ADDI4SPN (R431). -/
def execCAddi4spn (rd : CRegIdx) (imm : BitVec 8) (s : State) : Host.Outcome State Fault Refusal :=
  regImm ilen2 addVal (creg rd) sp (immSpn imm) s

/-- C.LW (R433). -/
def execCLw (rd : CRegIdx) (rs1 : CRegIdx) (imm : BitVec 5) (s : State) : Host.Outcome State Fault Refusal :=
  load ilen2 4 (sextBytes 4) (creg rd) (s.getX (creg rs1) + immCWord imm) s

/-- C.LD (R434). -/
def execCLd (rd : CRegIdx) (rs1 : CRegIdx) (imm : BitVec 5) (s : State) : Host.Outcome State Fault Refusal :=
  load ilen2 8 (sextBytes 8) (creg rd) (s.getX (creg rs1) + immCDouble imm) s

/-- Quadrant 0, funct3 100, unassigned (R435). -/
def execCReservedQ0 (bits : BitVec 11) (_s : State) : Host.Outcome State Fault Refusal :=
  .fault (unassigned (.cReservedQ0 bits))

/-- C.SW (R437). -/
def execCSw (rs1 : CRegIdx) (rs2 : CRegIdx) (imm : BitVec 5) (s : State) : Host.Outcome State Fault Refusal :=
  store ilen2 4 (s.getX (creg rs1) + immCWord imm) (s.getX (creg rs2)) s

/-- C.SD (R438). -/
def execCSd (rs1 : CRegIdx) (rs2 : CRegIdx) (imm : BitVec 5) (s : State) : Host.Outcome State Fault Refusal :=
  store ilen2 8 (s.getX (creg rs1) + immCDouble imm) (s.getX (creg rs2)) s

/-- C.NOP (R440). -/
def execCNop (imm : BitVec 6) (s : State) : Host.Outcome State Fault Refusal :=
  regImm ilen2 addVal x0 x0 (imm6 imm) s

/-- C.ADDI (R441). -/
def execCAddi (rd : RegIdx) (imm : BitVec 6) (s : State) : Host.Outcome State Fault Refusal :=
  regImm ilen2 addVal rd rd (imm6 imm) s

/-- C.ADDIW (R442). -/
def execCAddiw (rd : RegIdx) (imm : BitVec 6) (s : State) : Host.Outcome State Fault Refusal :=
  regImm ilen2 addwVal rd rd (imm6 imm) s

/-- C.LI (R443). -/
def execCLi (rd : RegIdx) (imm : BitVec 6) (s : State) : Host.Outcome State Fault Refusal :=
  regImm ilen2 addVal rd x0 (imm6 imm) s

/-- C.ADDI16SP (R451). -/
def execCAddi16sp (imm : BitVec 6) (s : State) : Host.Outcome State Fault Refusal :=
  regImm ilen2 addVal sp sp (imm16sp imm) s

/-- C.LUI (R452). -/
def execCLui (rd : RegIdx) (imm : BitVec 6) (s : State) : Host.Outcome State Fault Refusal :=
  writeReg ilen2 rd (immCLui imm) s

/-- C.SRLI (R453). -/
def execCSrli (rd : CRegIdx) (shamt : BitVec 6) (s : State) : Host.Outcome State Fault Refusal :=
  regImm ilen2 srlVal (creg rd) (creg rd) (zext shamt) s

/-- C.SRAI (R454). -/
def execCSrai (rd : CRegIdx) (shamt : BitVec 6) (s : State) : Host.Outcome State Fault Refusal :=
  regImm ilen2 sraVal (creg rd) (creg rd) (zext shamt) s

/-- C.ANDI (R455). -/
def execCAndi (rd : CRegIdx) (imm : BitVec 6) (s : State) : Host.Outcome State Fault Refusal :=
  regImm ilen2 andVal (creg rd) (creg rd) (imm6 imm) s

/-- C.SUB (R456). -/
def execCSub (rd : CRegIdx) (rs2 : CRegIdx) (s : State) : Host.Outcome State Fault Refusal :=
  regReg ilen2 subVal (creg rd) (creg rd) (creg rs2) s

/-- C.XOR (R457). -/
def execCXor (rd : CRegIdx) (rs2 : CRegIdx) (s : State) : Host.Outcome State Fault Refusal :=
  regReg ilen2 xorVal (creg rd) (creg rd) (creg rs2) s

/-- C.OR (R458). -/
def execCOr (rd : CRegIdx) (rs2 : CRegIdx) (s : State) : Host.Outcome State Fault Refusal :=
  regReg ilen2 orVal (creg rd) (creg rd) (creg rs2) s

/-- C.AND (R459). -/
def execCAnd (rd : CRegIdx) (rs2 : CRegIdx) (s : State) : Host.Outcome State Fault Refusal :=
  regReg ilen2 andVal (creg rd) (creg rd) (creg rs2) s

/-- C.SUBW (R460). -/
def execCSubw (rd : CRegIdx) (rs2 : CRegIdx) (s : State) : Host.Outcome State Fault Refusal :=
  regReg ilen2 subwVal (creg rd) (creg rd) (creg rs2) s

/-- C.ADDW (R461). -/
def execCAddw (rd : CRegIdx) (rs2 : CRegIdx) (s : State) : Host.Outcome State Fault Refusal :=
  regReg ilen2 addwVal (creg rd) (creg rd) (creg rs2) s

/-- Quadrant 1, funct3 100, inst[12:10] = 111, inst[6] = 1, unassigned (R462). -/
def execCReservedQ1 (rd : CRegIdx) (low : BitVec 1) (rs2 : CRegIdx) (_s : State) : Host.Outcome State Fault Refusal :=
  .fault (unassigned (.cReservedQ1 rd low rs2))

/-- C.J (R463). -/
def execCJ (imm : BitVec 11) (s : State) : Host.Outcome State Fault Refusal :=
  jumpLink ilen2 x0 (s.pc + immCJ imm) s

/-- C.BEQZ (R464). -/
def execCBeqz (rs1 : CRegIdx) (imm : BitVec 8) (s : State) : Host.Outcome State Fault Refusal :=
  branch ilen2 (s.getX (creg rs1) == s.getX x0) (immCBranch imm) s

/-- C.BNEZ (R465). -/
def execCBnez (rs1 : CRegIdx) (imm : BitVec 8) (s : State) : Host.Outcome State Fault Refusal :=
  branch ilen2 (s.getX (creg rs1) != s.getX x0) (immCBranch imm) s

/-- C.SLLI (R470). -/
def execCSlli (rd : RegIdx) (shamt : BitVec 6) (s : State) : Host.Outcome State Fault Refusal :=
  regImm ilen2 sllVal rd rd (zext shamt) s

/-- C.LWSP (R472). -/
def execCLwsp (rd : RegIdx) (imm : BitVec 6) (s : State) : Host.Outcome State Fault Refusal :=
  load ilen2 4 (sextBytes 4) rd (s.getX sp + immSpWord imm) s

/-- C.LDSP (R473). -/
def execCLdsp (rd : RegIdx) (imm : BitVec 6) (s : State) : Host.Outcome State Fault Refusal :=
  load ilen2 8 (sextBytes 8) rd (s.getX sp + immSpDouble imm) s

/-- C.SWSP (R475). -/
def execCSwsp (rs2 : RegIdx) (imm : BitVec 6) (s : State) : Host.Outcome State Fault Refusal :=
  store ilen2 4 (s.getX sp + immSpWord imm) (s.getX rs2) s

/-- C.SDSP (R476). -/
def execCSdsp (rs2 : RegIdx) (imm : BitVec 6) (s : State) : Host.Outcome State Fault Refusal :=
  store ilen2 8 (s.getX sp + immSpDouble imm) (s.getX rs2) s

/-- C.EBREAK (R480). -/
def execCEbreak (s : State) : Host.Outcome State Fault Refusal :=
  (Res.raise .breakpoint 0 s).finish

/-- C.JALR (R477). -/
def execCJalr (rs1 : RegIdx) (s : State) : Host.Outcome State Fault Refusal :=
  jumpLink ilen2 ra (s.getX rs1) s

/-- C.JR (R478). -/
def execCJr (rs1 : RegIdx) (s : State) : Host.Outcome State Fault Refusal :=
  jumpLink ilen2 x0 (s.getX rs1) s

/-- C.MV (R479). -/
def execCMv (rd : RegIdx) (rs2 : RegIdx) (s : State) : Host.Outcome State Fault Refusal :=
  regReg ilen2 addVal rd x0 rs2 s

/-- C.ADD (R481). -/
def execCAdd (rd : RegIdx) (rs2 : RegIdx) (s : State) : Host.Outcome State Fault Refusal :=
  regReg ilen2 addVal rd rd rs2 s

end Sys2Proof.Machine
end

