-- ==== Sys2Proof/Machine/Control.lean ====
section
/-! DEFINITION. Control transfer (spec/41_control_transfer.md, R290 to R300): no target is tested (R291). -/

namespace Sys2Proof.Machine

/-- JAL (R293). -/
def execJal (rd : RegIdx) (imm : BitVec 20) (s : State) : Host.Outcome State Fault Refusal :=
  jumpLink ilen4 rd (s.pc + immJ imm) s

/-- JALR (R294). -/
def execJalr (rd : RegIdx) (rs1 : RegIdx) (imm : BitVec 12) (s : State) : Host.Outcome State Fault Refusal :=
  jumpLink ilen4 rd (s.getX rs1 + imm12 imm) s

/-- BEQ (R295). -/
def execBeq (rs1 : RegIdx) (rs2 : RegIdx) (imm : BitVec 12) (s : State) : Host.Outcome State Fault Refusal :=
  branch ilen4 (s.getX rs1 == s.getX rs2) (immB imm) s

/-- BNE (R296). -/
def execBne (rs1 : RegIdx) (rs2 : RegIdx) (imm : BitVec 12) (s : State) : Host.Outcome State Fault Refusal :=
  branch ilen4 (s.getX rs1 != s.getX rs2) (immB imm) s

/-- BLT (R297). -/
def execBlt (rs1 : RegIdx) (rs2 : RegIdx) (imm : BitVec 12) (s : State) : Host.Outcome State Fault Refusal :=
  branch ilen4 (decide ((s.getX rs1).toInt < (s.getX rs2).toInt)) (immB imm) s

/-- BGE (R298). -/
def execBge (rs1 : RegIdx) (rs2 : RegIdx) (imm : BitVec 12) (s : State) : Host.Outcome State Fault Refusal :=
  branch ilen4 (decide ((s.getX rs2).toInt ≤ (s.getX rs1).toInt)) (immB imm) s

/-- BLTU (R299). -/
def execBltu (rs1 : RegIdx) (rs2 : RegIdx) (imm : BitVec 12) (s : State) : Host.Outcome State Fault Refusal :=
  branch ilen4 (decide ((s.getX rs1).toNat < (s.getX rs2).toNat)) (immB imm) s

/-- BGEU (R300). -/
def execBgeu (rs1 : RegIdx) (rs2 : RegIdx) (imm : BitVec 12) (s : State) : Host.Outcome State Fault Refusal :=
  branch ilen4 (decide ((s.getX rs2).toNat ≤ (s.getX rs1).toNat)) (immB imm) s

end Sys2Proof.Machine
end

