-- ==== Sys2Proof/Machine/Csr.lean ====
section
/-! DEFINITION. Zicsr (spec/45_zicsr.md, R390 to R398): the write flag is that of R391. -/

namespace Sys2Proof.Machine

/-- CSRRW (R393). -/
def execCsrrw (rd : RegIdx) (rs1 : RegIdx) (csr : CsrNum) (s : State) : Host.Outcome State Fault Refusal :=
  csrAccess csr (s.getX rs1) .write true rd s

/-- CSRRS (R394). -/
def execCsrrs (rd : RegIdx) (rs1 : RegIdx) (csr : CsrNum) (s : State) : Host.Outcome State Fault Refusal :=
  csrAccess csr (s.getX rs1) .set (rs1 != 0) rd s

/-- CSRRC (R395). -/
def execCsrrc (rd : RegIdx) (rs1 : RegIdx) (csr : CsrNum) (s : State) : Host.Outcome State Fault Refusal :=
  csrAccess csr (s.getX rs1) .clear (rs1 != 0) rd s

/-- CSRRWI (R396). -/
def execCsrrwi (rd : RegIdx) (uimm : BitVec 5) (csr : CsrNum) (s : State) : Host.Outcome State Fault Refusal :=
  csrAccess csr (zext uimm) .write true rd s

/-- CSRRSI (R397). -/
def execCsrrsi (rd : RegIdx) (uimm : BitVec 5) (csr : CsrNum) (s : State) : Host.Outcome State Fault Refusal :=
  csrAccess csr (zext uimm) .set (uimm != 0) rd s

/-- CSRRCI (R398). -/
def execCsrrci (rd : RegIdx) (uimm : BitVec 5) (csr : CsrNum) (s : State) : Host.Outcome State Fault Refusal :=
  csrAccess csr (zext uimm) .clear (uimm != 0) rd s

end Sys2Proof.Machine
end

