-- ==== Sys2Proof/Machine/FloatingPoint.lean ====
section
/-! DEFINITION. Floating point: every encoding is refused (R14, R206, spec/92_eei_decisions.md D4; log entry 24). -/

namespace Sys2Proof.Machine

/-- LOAD-FP (R206). -/
def execLoadFp (_bits : BitVec 25) (_s : State) : Host.Outcome State Fault Refusal :=
  .refused .floatingPoint

/-- STORE-FP (R206). -/
def execStoreFp (_bits : BitVec 25) (_s : State) : Host.Outcome State Fault Refusal :=
  .refused .floatingPoint

/-- MADD (R206). -/
def execFmadd (_bits : BitVec 25) (_s : State) : Host.Outcome State Fault Refusal :=
  .refused .floatingPoint

/-- MSUB (R206). -/
def execFmsub (_bits : BitVec 25) (_s : State) : Host.Outcome State Fault Refusal :=
  .refused .floatingPoint

/-- NMSUB (R206). -/
def execFnmsub (_bits : BitVec 25) (_s : State) : Host.Outcome State Fault Refusal :=
  .refused .floatingPoint

/-- NMADD (R206). -/
def execFnmadd (_bits : BitVec 25) (_s : State) : Host.Outcome State Fault Refusal :=
  .refused .floatingPoint

/-- OP-FP (R206). -/
def execOpFp (_bits : BitVec 25) (_s : State) : Host.Outcome State Fault Refusal :=
  .refused .floatingPoint

/-- C.FLD (R432). -/
def execCFld (_bits : BitVec 11) (_s : State) : Host.Outcome State Fault Refusal :=
  .refused .floatingPoint

/-- C.FSD (R436). -/
def execCFsd (_bits : BitVec 11) (_s : State) : Host.Outcome State Fault Refusal :=
  .refused .floatingPoint

/-- C.FLDSP (R471). -/
def execCFldsp (_bits : BitVec 11) (_s : State) : Host.Outcome State Fault Refusal :=
  .refused .floatingPoint

/-- C.FSDSP (R474). -/
def execCFsdsp (_bits : BitVec 11) (_s : State) : Host.Outcome State Fault Refusal :=
  .refused .floatingPoint

end Sys2Proof.Machine
end

