-- ==== Sys2Proof/Machine/LoadStore.lean ====
section
/-! DEFINITION. Loads and stores (spec/42_load_store.md, R310 to R323). -/

namespace Sys2Proof.Machine

/-- LB (R313). -/
def execLb (rd : RegIdx) (rs1 : RegIdx) (imm : BitVec 12) (s : State) : Host.Outcome State Fault Refusal :=
  load ilen4 1 (sextBytes 1) rd (s.getX rs1 + imm12 imm) s

/-- LH (R314). -/
def execLh (rd : RegIdx) (rs1 : RegIdx) (imm : BitVec 12) (s : State) : Host.Outcome State Fault Refusal :=
  load ilen4 2 (sextBytes 2) rd (s.getX rs1 + imm12 imm) s

/-- LW (R315). -/
def execLw (rd : RegIdx) (rs1 : RegIdx) (imm : BitVec 12) (s : State) : Host.Outcome State Fault Refusal :=
  load ilen4 4 (sextBytes 4) rd (s.getX rs1 + imm12 imm) s

/-- LD (R316). -/
def execLd (rd : RegIdx) (rs1 : RegIdx) (imm : BitVec 12) (s : State) : Host.Outcome State Fault Refusal :=
  load ilen4 8 (sextBytes 8) rd (s.getX rs1 + imm12 imm) s

/-- LBU (R317). -/
def execLbu (rd : RegIdx) (rs1 : RegIdx) (imm : BitVec 12) (s : State) : Host.Outcome State Fault Refusal :=
  load ilen4 1 (zextBytes 1) rd (s.getX rs1 + imm12 imm) s

/-- LHU (R318). -/
def execLhu (rd : RegIdx) (rs1 : RegIdx) (imm : BitVec 12) (s : State) : Host.Outcome State Fault Refusal :=
  load ilen4 2 (zextBytes 2) rd (s.getX rs1 + imm12 imm) s

/-- LWU (R319). -/
def execLwu (rd : RegIdx) (rs1 : RegIdx) (imm : BitVec 12) (s : State) : Host.Outcome State Fault Refusal :=
  load ilen4 4 (zextBytes 4) rd (s.getX rs1 + imm12 imm) s

/-- SB (R320). -/
def execSb (rs1 : RegIdx) (rs2 : RegIdx) (imm : BitVec 12) (s : State) : Host.Outcome State Fault Refusal :=
  store ilen4 1 (s.getX rs1 + imm12 imm) (s.getX rs2) s

/-- SH (R321). -/
def execSh (rs1 : RegIdx) (rs2 : RegIdx) (imm : BitVec 12) (s : State) : Host.Outcome State Fault Refusal :=
  store ilen4 2 (s.getX rs1 + imm12 imm) (s.getX rs2) s

/-- SW (R322). -/
def execSw (rs1 : RegIdx) (rs2 : RegIdx) (imm : BitVec 12) (s : State) : Host.Outcome State Fault Refusal :=
  store ilen4 4 (s.getX rs1 + imm12 imm) (s.getX rs2) s

/-- SD (R323). -/
def execSd (rs1 : RegIdx) (rs2 : RegIdx) (imm : BitVec 12) (s : State) : Host.Outcome State Fault Refusal :=
  store ilen4 8 (s.getX rs1 + imm12 imm) (s.getX rs2) s

end Sys2Proof.Machine
end

