-- ==== Sys2Proof/Machine/MulDiv.lean ====
section
/-! DEFINITION. M extension (spec/43_m_extension.md, R330 to R343). -/

namespace Sys2Proof.Machine

/-- MUL (R331). -/
def execMul (rd : RegIdx) (rs1 : RegIdx) (rs2 : RegIdx) (s : State) : Host.Outcome State Fault Refusal :=
  regReg ilen4 mulVal rd rs1 rs2 s

/-- MULH (R332). -/
def execMulh (rd : RegIdx) (rs1 : RegIdx) (rs2 : RegIdx) (s : State) : Host.Outcome State Fault Refusal :=
  regReg ilen4 mulhVal rd rs1 rs2 s

/-- MULHSU (R333). -/
def execMulhsu (rd : RegIdx) (rs1 : RegIdx) (rs2 : RegIdx) (s : State) : Host.Outcome State Fault Refusal :=
  regReg ilen4 mulhsuVal rd rs1 rs2 s

/-- MULHU (R334). -/
def execMulhu (rd : RegIdx) (rs1 : RegIdx) (rs2 : RegIdx) (s : State) : Host.Outcome State Fault Refusal :=
  regReg ilen4 mulhuVal rd rs1 rs2 s

/-- MULW (R335). -/
def execMulw (rd : RegIdx) (rs1 : RegIdx) (rs2 : RegIdx) (s : State) : Host.Outcome State Fault Refusal :=
  regReg ilen4 mulwVal rd rs1 rs2 s

/-- DIV (R336). -/
def execDiv (rd : RegIdx) (rs1 : RegIdx) (rs2 : RegIdx) (s : State) : Host.Outcome State Fault Refusal :=
  regReg ilen4 divVal rd rs1 rs2 s

/-- DIVU (R337). -/
def execDivu (rd : RegIdx) (rs1 : RegIdx) (rs2 : RegIdx) (s : State) : Host.Outcome State Fault Refusal :=
  regReg ilen4 divuVal rd rs1 rs2 s

/-- REM (R338). -/
def execRem (rd : RegIdx) (rs1 : RegIdx) (rs2 : RegIdx) (s : State) : Host.Outcome State Fault Refusal :=
  regReg ilen4 remVal rd rs1 rs2 s

/-- REMU (R339). -/
def execRemu (rd : RegIdx) (rs1 : RegIdx) (rs2 : RegIdx) (s : State) : Host.Outcome State Fault Refusal :=
  regReg ilen4 remuVal rd rs1 rs2 s

/-- DIVW (R340). -/
def execDivw (rd : RegIdx) (rs1 : RegIdx) (rs2 : RegIdx) (s : State) : Host.Outcome State Fault Refusal :=
  regReg ilen4 divwVal rd rs1 rs2 s

/-- DIVUW (R341). -/
def execDivuw (rd : RegIdx) (rs1 : RegIdx) (rs2 : RegIdx) (s : State) : Host.Outcome State Fault Refusal :=
  regReg ilen4 divuwVal rd rs1 rs2 s

/-- REMW (R342). -/
def execRemw (rd : RegIdx) (rs1 : RegIdx) (rs2 : RegIdx) (s : State) : Host.Outcome State Fault Refusal :=
  regReg ilen4 remwVal rd rs1 rs2 s

/-- REMUW (R343). -/
def execRemuw (rd : RegIdx) (rs1 : RegIdx) (rs2 : RegIdx) (s : State) : Host.Outcome State Fault Refusal :=
  regReg ilen4 remuwVal rd rs1 rs2 s

end Sys2Proof.Machine
end

