-- ==== Sys2Proof/Machine/System.lean ====
section
/-! DEFINITION. System and privileged instructions (spec/46_system_privileged.md, R410 to R419). -/

namespace Sys2Proof.Machine

/-- The cause of ECALL by privilege level: 8 + priv (R410). -/
def ecallCode : Priv → Exc
  | .user => .ecallUser
  | .supervisor => .ecallSupervisor
  | .machine => .ecallMachine

/-- ECALL (R410). -/
def execEcall (s : State) : Host.Outcome State Fault Refusal :=
  (Res.raise (ecallCode s.priv) 0 s).finish

/-- EBREAK (R411). -/
def execEbreak (s : State) : Host.Outcome State Fault Refusal :=
  (Res.raise .breakpoint 0 s).finish

/-- URET (R412). -/
def execUret (s : State) : Host.Outcome State Fault Refusal :=
  (trapExit .uret s).finish

/-- SRET (R413). -/
def execSret (s : State) : Host.Outcome State Fault Refusal :=
  (trapExit .sret s).finish

/-- MRET (R414). -/
def execMret (s : State) : Host.Outcome State Fault Refusal :=
  (trapExit .mret s).finish

/-- WFI (R415). -/
def execWfi (s : State) : Host.Outcome State Fault Refusal :=
  nop ilen4 s

/-- SFENCE.VMA (R416). -/
def execSfenceVma (_rs1 : RegIdx) (_rs2 : RegIdx) (s : State) : Host.Outcome State Fault Refusal :=
  nop ilen4 s

/-- FENCE (R417). -/
def execFence (_fm : BitVec 4) (_pred : BitVec 4) (_succ : BitVec 4) (_rs1 : RegIdx) (_rd : RegIdx) (s : State) : Host.Outcome State Fault Refusal :=
  nop ilen4 s

/-- FENCE.I (R418). -/
def execFenceI (_imm : BitVec 12) (_rs1 : RegIdx) (_rd : RegIdx) (s : State) : Host.Outcome State Fault Refusal :=
  nop ilen4 s

end Sys2Proof.Machine
end

