-- ==== Sys2Proof/Machine/Cycle.lean ====
section
/-! DEFINITION. The fetch unit and the cycle (R503, R504 of spec/60_exceptions.md, R140 to R142 of spec/20_memory.md). -/

namespace Sys2Proof.Machine

/-- `Fetch16(va)` (R140): the odd-address test, one translation, one 2-byte read. -/
def fetch16 (va : Word) (s : State) : Res (BitVec 16) :=
  if va.getLsbD 0 then .raise .instrMisaligned va s
  else (translateVa .fetch va s).bind fun pa s => (physRead pa 2 .none s).bind fun v s => .done (v.extractLsb' 0 16) s

/-- The fetch unit (R504): the second parcel is read only when the first calls for it. -/
def fetch (s : State) : Res InstBits :=
  (fetch16 s.pc s).bind fun p0 s =>
    if isLong p0 then
      (fetch16 (s.pc + 2) s).bind fun p1 s => .done (.full (p1 ++ p0)) s
    else .done (.half p0) s

/-- The outcome of a decode without an instruction (R503 step 3). -/
def rejectOutcome : Reject → Host.Outcome State Fault Refusal
  | .unknownEncoding bits => .fault (.unknownEncoding bits)
  | .reservedCompressed => .refused .reservedCompressed

/-- Steps 3 and 4 of R503 for the bits a fetch gave. -/
def decodeAndRun (bits : InstBits) (s : State) : Host.Outcome State Fault Refusal :=
  match decode bits with
  | .ok i => exec i s
  | .error r => rejectOutcome r

/-- Steps 2 to 5 of R503, from the state the interrupt check leaves. -/
def fetchAndRun (s : State) : Host.Outcome State Fault Refusal :=
  match fetch s with
  | .done bits s => decodeAndRun bits s
  | .raise e tval s => .next (trapEnter s.pc e.cause tval s)
  | .fatal r => .fault r
  | .refuse r => .refused r

/-- One cycle of a running hart (R503): the interrupt check, and in the same cycle the instruction at the pc it
leaves. -/
def cycle (s : State) : Host.Outcome State Fault Refusal := fetchAndRun (handleInterrupt s)

/-- One step: a halted hart performs no cycle (R40). -/
def stepState (s : State) : Host.Outcome State Fault Refusal :=
  match s.halted with
  | .running => cycle s
  | .fatal r => .fault r

/-- The state the hart is left in after a step. A fatal outcome sets the halted mark and the hart makes no other write in
that cycle (R13, spec decision D2), an interrupt entry of the cycle included (log entry 11); the sample of the inputs is
consumed. DESIGN CHOICE (log entry 30): the RAM side effects of an undescribed device that a fetch parcel, a page-table
entry or an access read earlier in that cycle, and the draws of its free values, are dropped with it; R115, R503 and R505
do not say whether such side effects remain after a fatal end. A refused cycle is outside the model (R14): the state is
given as it was. -/
def settle (s : State) : State :=
  match stepState s with
  | .next t => t
  | .fault r =>
    match s.halted with
    | .running => { (pollInputs s).2 with halted := .fatal r }
    | .fatal _ => s
  | .refused _ => s

/-! ### Placing an instruction where the next step fetches -/

/-- Where a parcel at the virtual address `va` is read from in the state `s`: a byte list and a key in it. -/
inductive ParcelPlace where
  | mem (key : Nat)
  | rom (key : Nat)
  | nowhere
  deriving DecidableEq, Repr

/-- The place of a parcel (R140): nowhere when the fetch of it does not reach a memory or ROM device. -/
def parcelPlace (va : Word) (s : State) : ParcelPlace :=
  match translateVa .fetch va s with
  | .done pa _ =>
    match s.plat.physMap.route pa with
    | (.memory base, off) => .mem (base + off.toNat)
    | (.rom base, off) => .rom (base + off.toNat)
    | (.absent, _) => .nowhere
    | (.other _, _) => .nowhere
  | .raise _ _ _ => .nowhere
  | .fatal _ => .nowhere
  | .refuse _ => .nowhere

/-- Storing two bytes at a place. -/
def placeParcel (p : ParcelPlace) (v : Word) (s : State) : State :=
  match p with
  | .mem key => { s with mem := Memory.writeLE s.mem key 2 v }
  | .rom key => { s with rom := Memory.writeLE s.rom key 2 v }
  | .nowhere => s

/-- `s` with the bits of a table word stored where the next step fetches: after the interrupt check of that step, at
the pc it leaves and two bytes on (log entry 12). -/
def placeWord (nbits w : Nat) (s : State) : State :=
  let v := BitVec.ofNat 64 (w % 2 ^ nbits)
  let t := handleInterrupt s
  placeParcel (parcelPlace (t.pc + 2) t) (v >>> 16) (placeParcel (parcelPlace t.pc t) v s)

end Sys2Proof.Machine
end

