-- ==== Sys2Proof/Machine/Step.lean ====
section
/-! DEFINITION. One step of the machine, and the placing of an instruction where it fetches. -/

namespace Sys2Proof.Machine

/-- One cycle of the hart (R503), or nothing when it is halted (R40). -/
def step (s : State) : Host.Outcome State Fault Refusal := stepState s

/-- `s` with the instruction whose bits are `w` (bits from `nbits` on are 0) stored where `step` fetches. -/
def State.withFetchWord (s : State) (nbits w : Nat) : State := placeWord nbits w s

end Sys2Proof.Machine
end

