-- ==== Sys2Proof/Safety.lean ====
section
/-! DEFINITION. What counts as a good state and a safe run, in the terms the claims use. -/

namespace Sys2Proof.Machine

/-- The invariant every step keeps: memory, ROM contents and the CSR array in canonical form, and the hart running
(R40). -/
structure State.Inv (s : State) : Prop where
  memWf : Memory.wf s.mem = true
  romWf : Memory.wf s.rom = true
  csrWf : s.csr.wf = true
  running : s.halted = .running

/-- What no step changes: the floating-point registers (R36), the slots of the CSR array that no register of the table of
R50 has (log entry 13), the parameters of R9, and the contents of ROM (R108; log entry 9). -/
structure SameFixed (s t : State) : Prop where
  fregs : t.fregs = s.fregs
  slots : t.csr.others = s.csr.others
  plat : t.plat = s.plat
  rom : t.rom = s.rom
  halted : t.halted = s.halted

/-- A run of `k` steps with no fault and no refusal: normal completion (R13). -/
def SafeRun (k : Nat) (s t : State) : Prop :=
  match k with
  | 0 => s = t
  | k + 1 => ∃ u, step s = .next u ∧ SafeRun k u t

end Sys2Proof.Machine
end

