-- ==== Sys2Proof/Certificates/Slice0/Obligations.lean ====
section
/-! DEFINITION. The statements for the provers, from the numbered rules of spec/. Words are written out bit by bit from
the encoding tables; values are spelled with integer and bit-vector arithmetic, not with the model's own value
functions. -/

open Sys2Proof Sys2Proof.Machine

/-! ## The vocabulary of the statements -/

namespace Sys2Proof.Claims

/-! ### Words, bit by bit (R173 to R181 of spec/30_encoding.md) -/

def wordR (f7 : BitVec 7) (f3 : BitVec 3) (op : BitVec 7) (rd rs1 rs2 : RegIdx) : InstBits :=
  .full (f7 ++ rs2 ++ rs1 ++ f3 ++ rd ++ op)

def wordI (f3 : BitVec 3) (op : BitVec 7) (rd rs1 : RegIdx) (imm : BitVec 12) : InstBits :=
  .full (imm ++ rs1 ++ f3 ++ rd ++ op)

def wordSh (f6 : BitVec 6) (f3 : BitVec 3) (rd rs1 : RegIdx) (shamt : BitVec 6) : InstBits :=
  .full (f6 ++ shamt ++ rs1 ++ f3 ++ rd ++ 0b0010011#7)

def wordS (f3 : BitVec 3) (rs1 rs2 : RegIdx) (imm : BitVec 12) : InstBits :=
  .full (imm.extractLsb' 5 7 ++ rs2 ++ rs1 ++ f3 ++ imm.extractLsb' 0 5 ++ 0b0100011#7)

/-- `off` is offset[12:1]. -/
def wordB (f3 : BitVec 3) (rs1 rs2 : RegIdx) (off : BitVec 12) : InstBits :=
  .full (off.extractLsb' 11 1 ++ off.extractLsb' 4 6 ++ rs2 ++ rs1 ++ f3 ++ off.extractLsb' 0 4 ++
    off.extractLsb' 10 1 ++ 0b1100011#7)

def wordU (op : BitVec 7) (rd : RegIdx) (imm : BitVec 20) : InstBits := .full (imm ++ rd ++ op)

/-- `off` is offset[20:1]. -/
def wordJ (rd : RegIdx) (off : BitVec 20) : InstBits :=
  .full (off.extractLsb' 19 1 ++ off.extractLsb' 0 10 ++ off.extractLsb' 10 1 ++ off.extractLsb' 11 8 ++ rd ++
    0b1101111#7)

def wordAmo (f5 : BitVec 5) (f3 : BitVec 3) (rd rs1 rs2 : RegIdx) (aq rl : BitVec 1) : InstBits :=
  .full (f5 ++ aq ++ rl ++ rs2 ++ rs1 ++ f3 ++ rd ++ 0b0101111#7)

/-- CI format; `imm` is inst[12], inst[6:2]. -/
def parcelCI (f3 : BitVec 3) (q : BitVec 2) (r : RegIdx) (imm : BitVec 6) : InstBits :=
  .half (f3 ++ imm.extractLsb' 5 1 ++ r ++ imm.extractLsb' 0 5 ++ q)

/-- CB format with a shift amount or an immediate; `imm` is inst[12], inst[6:2]. -/
def parcelCB (f2 : BitVec 2) (r : CRegIdx) (imm : BitVec 6) : InstBits :=
  .half (0b100#3 ++ imm.extractLsb' 5 1 ++ f2 ++ r ++ imm.extractLsb' 0 5 ++ 0b01#2)

def parcelCA (f6 : BitVec 6) (f2 : BitVec 2) (r r2 : CRegIdx) : InstBits := .half (f6 ++ r ++ f2 ++ r2 ++ 0b01#2)

def parcelCR (f4 : BitVec 4) (r r2 : RegIdx) : InstBits := .half (f4 ++ r ++ r2 ++ 0b10#2)

/-! ### What an instruction does -/

/-- The word decodes to the instruction, and the instruction, run in `s`, completes with the state `t`. -/
def Does (w : InstBits) (i : Instr) (s t : State) : Prop := decode w = .ok i ∧ exec i s = .next t

/-- `x[rd] <- v; pc <- pc + len`. -/
def put (s : State) (rd : RegIdx) (v : Word) (len : Word) : State := (s.setX rd v).setPc (s.pc + len)

def sx12 (imm : BitVec 12) : Word := imm.signExtend 64

/-- 1 or 0 in a register. -/
def flag (p : Prop) [Decidable p] : Word := if p then 1 else 0

def lo (v : Word) : BitVec 32 := v.setWidth 32

/-- The state after the side effect of an access to a device the spec does not describe: free bytes of RAM are written
and one more free value is drawn (the model's own, log entry 9). -/
def touched (a : DeviceAccess) (s : State) : State :=
  { s with mem := Memory.writeAll s.mem (Config.deviceEffects a s.draws), draws := s.draws + 1 }

/-- The free n-byte answer of such an access (log entry 9). -/
def answer (a : DeviceAccess) (s : State) : Word := zextBytes a.size (Config.deviceValue a s.draws)

/-- Every way a load of n bytes at `va` into `rd` ends: Load address misaligned (4), Load page fault (13), a stop in the
walk, and the loaded value by the device that answers. -/
def LoadRule (i : Instr) (n : Nat) (va : Word) (rd : RegIdx) (ext : Word → Word) (len : Word) (s : State) : Prop :=
  (va.toNat % n ≠ 0 → exec i s = .next (trapEnter s.pc 4 va s)) ∧
  (va.toNat % n = 0 →
    (∀ e tval u, translateVa .load va s = .raise e tval u → exec i s = .next (trapEnter s.pc 13 va u)) ∧
    (∀ r, translateVa .load va s = .fatal r → exec i s = .fault r) ∧
    (∀ pa u, translateVa .load va s = .done pa u →
      (∀ base off, u.plat.physMap.route pa = (.memory base, off) →
        exec i s = .next (put u rd (ext (Memory.readLE u.mem (base + off.toNat) n)) len)) ∧
      (∀ base off, u.plat.physMap.route pa = (.rom base, off) →
        exec i s = .next (put u rd (ext (Memory.readLE u.rom (base + off.toNat) n)) len)) ∧
      (∀ h off, u.plat.physMap.route pa = (.other h, off) →
        exec i s = .next (put (touched ⟨.other h, .read, off, n, 0, .none⟩ u) rd
          (ext (answer ⟨.other h, .read, off, n, 0, .none⟩ u)) len)) ∧
      (∀ off, u.plat.physMap.route pa = (.absent, off) → exec i s = .fault (.noDevice pa n .read))))

/-- Every way a store of the low n bytes of `v` at `va` ends: Store/AMO address misaligned (6), Store/AMO page fault
(15), a stop in the walk; in a memory device the n bytes from the cell of `pa` on hold the value, little-endian, and no
other byte changes. -/
def StoreRule (i : Instr) (n : Nat) (va v : Word) (len : Word) (s : State) : Prop :=
  (va.toNat % n ≠ 0 → exec i s = .next (trapEnter s.pc 6 va s)) ∧
  (va.toNat % n = 0 →
    (∀ e tval u, translateVa .store va s = .raise e tval u → exec i s = .next (trapEnter s.pc 15 va u)) ∧
    (∀ r, translateVa .store va s = .fatal r → exec i s = .fault r) ∧
    (∀ pa u, translateVa .store va s = .done pa u →
      (∀ base off, u.plat.physMap.route pa = (.memory base, off) →
        ∃ m : Memory, exec i s = .next ({ u with mem := m }.setPc (u.pc + len)) ∧
          (Memory.wf u.mem = true → Memory.wf m = true ∧
            (∀ j, j < n → m.read (base + off.toNat + j) = v.extractLsb' (8 * j) 8) ∧
            ∀ k, k < base + off.toNat ∨ base + off.toNat + n ≤ k → m.read k = Memory.read u.mem k)) ∧
      (∀ base off, u.plat.physMap.route pa = (.rom base, off) →
        exec i s = .next ((touched ⟨.rom base, .write, off, n, zextBytes n v, .none⟩ u).setPc (u.pc + len))) ∧
      (∀ h off, u.plat.physMap.route pa = (.other h, off) →
        exec i s = .next ((touched ⟨.other h, .write, off, n, zextBytes n v, .none⟩ u).setPc (u.pc + len))) ∧
      (∀ off, u.plat.physMap.route pa = (.absent, off) → exec i s = .fault (.noDevice pa n .write))))

/-- Every way a load-reserved of width `w` ends. -/
def LrRule (i : Instr) (w : AmoWidth) (va : Word) (rd : RegIdx) (ext : Word → Word) (s : State) : Prop :=
  (va.toNat % w.bytes ≠ 0 → exec i s = .next (trapEnter s.pc 4 va s)) ∧
  (va.toNat % w.bytes = 0 →
    (∀ e tval u, translateVa .load va s = .raise e tval u → exec i s = .next (trapEnter s.pc 13 va u)) ∧
    (∀ r, translateVa .load va s = .fatal r → exec i s = .fault r) ∧
    (∀ pa u, translateVa .load va s = .done pa u →
      (∀ base off, u.plat.physMap.route pa = (.memory base, off) →
        exec i s = .next (put { u with resv := some ⟨pa, w⟩ } rd
          (ext (Memory.readLE u.mem (base + off.toNat) w.bytes)) 4)) ∧
      (∀ base off, u.plat.physMap.route pa = (.rom base, off) →
        exec i s = .next (put { u with resv := some ⟨pa, w⟩ } rd
          (ext (Memory.readLE u.rom (base + off.toNat) w.bytes)) 4)) ∧
      (∀ h off, u.plat.physMap.route pa = (.other h, off) →
        exec i s = .next (put { touched ⟨.other h, .read, off, w.bytes, 0, .lr⟩ u with resv := some ⟨pa, w⟩ } rd
          (ext (answer ⟨.other h, .read, off, w.bytes, 0, .lr⟩ u)) 4)) ∧
      (∀ off, u.plat.physMap.route pa = (.absent, off) → exec i s = .fault (.noDevice pa w.bytes .read))))

/-- Every way a store-conditional of width `w` ends: it stores and answers 0 exactly when the reservation matches in
address and width, it answers 1 otherwise, and clears the reservation either way. -/
def ScRule (i : Instr) (w : AmoWidth) (va v : Word) (rd : RegIdx) (s : State) : Prop :=
  (va.toNat % w.bytes ≠ 0 → exec i s = .next (trapEnter s.pc 6 va s)) ∧
  (va.toNat % w.bytes = 0 →
    (∀ e tval u, translateVa .store va s = .raise e tval u → exec i s = .next (trapEnter s.pc 15 va u)) ∧
    (∀ r, translateVa .store va s = .fatal r → exec i s = .fault r) ∧
    (∀ pa u, translateVa .store va s = .done pa u →
      (u.resv ≠ some ⟨pa, w⟩ → exec i s = .next (put { u with resv := none } rd 1 4)) ∧
      (u.resv = some ⟨pa, w⟩ →
        (∀ base off, u.plat.physMap.route pa = (.memory base, off) →
          ∃ m : Memory, exec i s = .next (put { u with mem := m, resv := none } rd 0 4) ∧
            (Memory.wf u.mem = true → Memory.wf m = true ∧
              (∀ j, j < w.bytes → m.read (base + off.toNat + j) = v.extractLsb' (8 * j) 8) ∧
              ∀ k, k < base + off.toNat ∨ base + off.toNat + w.bytes ≤ k → m.read k = Memory.read u.mem k)) ∧
        (∀ base off, u.plat.physMap.route pa = (.rom base, off) →
          exec i s = .next (put { touched ⟨.rom base, .write, off, w.bytes, zextBytes w.bytes v, .sc⟩ u with
            resv := none } rd 0 4)) ∧
        (∀ h off, u.plat.physMap.route pa = (.other h, off) →
          exec i s = .next (put { touched ⟨.other h, .write, off, w.bytes, zextBytes w.bytes v, .sc⟩ u with
            resv := none } rd 0 4)) ∧
        (∀ off, u.plat.physMap.route pa = (.absent, off) → exec i s = .fault (.noDevice pa w.bytes .write)))))

/-- Every way an atomic read-modify-write of n bytes ends: the old value of a memory device goes to `rd` (through
`ext`), the n bytes hold `f old` little-endian, and no other byte changes; the reservation is not touched. -/
def AmoRule (i : Instr) (n : Nat) (tag : RmwTag) (va v : Word) (rd : RegIdx) (ext f : Word → Word) (s : State) : Prop :=
  (va.toNat % n ≠ 0 → exec i s = .next (trapEnter s.pc 6 va s)) ∧
  (va.toNat % n = 0 →
    (∀ e tval u, translateVa .store va s = .raise e tval u → exec i s = .next (trapEnter s.pc 15 va u)) ∧
    (∀ r, translateVa .store va s = .fatal r → exec i s = .fault r) ∧
    (∀ pa u, translateVa .store va s = .done pa u →
      (∀ base off, u.plat.physMap.route pa = (.memory base, off) →
        ∃ m : Memory,
          exec i s = .next (put { u with mem := m } rd (ext (Memory.readLE u.mem (base + off.toNat) n)) 4) ∧
          (Memory.wf u.mem = true → Memory.wf m = true ∧
            (∀ j, j < n → m.read (base + off.toNat + j) =
              (f (Memory.readLE u.mem (base + off.toNat) n)).extractLsb' (8 * j) 8) ∧
            ∀ k, k < base + off.toNat ∨ base + off.toNat + n ≤ k → m.read k = Memory.read u.mem k)) ∧
      (∀ base off, u.plat.physMap.route pa = (.rom base, off) →
        exec i s = .next (put (touched ⟨.rom base, .write, off, n, zextBytes n v, tag⟩ u) rd
          (ext (answer ⟨.rom base, .write, off, n, zextBytes n v, tag⟩ u)) 4)) ∧
      (∀ h off, u.plat.physMap.route pa = (.other h, off) →
        exec i s = .next (put (touched ⟨.other h, .write, off, n, zextBytes n v, tag⟩ u) rd
          (ext (answer ⟨.other h, .write, off, n, zextBytes n v, tag⟩ u)) 4)) ∧
      (∀ off, u.plat.physMap.route pa = (.absent, off) → exec i s = .fault (.noDevice pa n .write))))

/-- A word AMO: `f` works on the 32-bit old value and `x[rs2][31:0]`; the old value is sign-extended into `rd`. -/
def AmoWord (i : Instr) (tag : RmwTag) (rd rs1 rs2 : RegIdx) (f : BitVec 32 → BitVec 32 → BitVec 32) (s : State) :
    Prop :=
  AmoRule i 4 tag (s.getX rs1) (s.getX rs2) rd (fun old => (lo old).signExtend 64)
    (fun old => (f (lo old) (lo (s.getX rs2))).setWidth 64) s

/-- A doubleword AMO: `f` works on the 64-bit old value and `x[rs2]`. -/
def AmoDouble (i : Instr) (tag : RmwTag) (rd rs1 rs2 : RegIdx) (f : Word → Word → Word) (s : State) : Prop :=
  AmoRule i 8 tag (s.getX rs1) (s.getX rs2) rd id (fun old => f old (s.getX rs2)) s

/-- Every way a CSR instruction ends, by the class of its number: `wr` says whether it writes, `new` is the value it
writes. A trap is Illegal instruction (2) with trap value 0. -/
def CsrRule (i : Instr) (a : CsrNum) (wr : Bool) (new : Word → Word) (rd : RegIdx) (s : State) : Prop :=
  match csrClass s.plat.csrFatalSet a with
  | .refused => exec i s = .refused .floatingPoint
  | .fatal => exec i s = .fault (.csrPanic a)
  | .unsupported => exec i s = .next (trapEnter s.pc 2 0 s)
  | .unrecognized => exec i s = .next (trapEnter s.pc 2 0 s)
  | .computed c =>
    exec i s =
      if s.priv.code.toNat < (a.extractLsb' 8 2).toNat then .next (trapEnter s.pc 2 0 s)
      else if wr then .next (trapEnter s.pc 2 0 { s with draws := s.draws + 1 })
      else .next (put { s with draws := s.draws + 1 } rd (Config.counterRead c s.draws) 4)
  | .stored n =>
    exec i s =
      if s.priv.code.toNat < (a.extractLsb' 8 2).toNat then .next (trapEnter s.pc 2 0 s)
      else if wr then
        if a.extractLsb' 10 2 = 3 then .next (trapEnter s.pc 2 0 s)
        else .next (put { s with csr := s.csr.set n (new (s.csr.get n)) } rd (s.csr.get n) 4)
      else .next (put s rd (s.csr.get n) 4)

/-! ### Which state an instruction can change -/

/-- The integer register an instruction names as its destination (spec/opcode_table.json, R211, R477). -/
def dest : Instr → Option RegIdx
  | .lui rd _ | .auipc rd _ | .jal rd _ => some rd
  | .addi rd _ _ | .slti rd _ _ | .sltiu rd _ _ | .xori rd _ _ | .ori rd _ _ | .andi rd _ _ => some rd
  | .slli rd _ _ | .srli rd _ _ | .srai rd _ _ | .addiw rd _ _ | .slliw rd _ _ | .srliw rd _ _ => some rd
  | .sraiw rd _ _ | .jalr rd _ _ => some rd
  | .add rd _ _ | .sub rd _ _ | .sll rd _ _ | .slt rd _ _ | .sltu rd _ _ | .xor rd _ _ | .srl rd _ _ => some rd
  | .sra rd _ _ | .or rd _ _ | .and rd _ _ | .addw rd _ _ | .subw rd _ _ | .sllw rd _ _ | .srlw rd _ _ => some rd
  | .sraw rd _ _ => some rd
  | .lb rd _ _ | .lh rd _ _ | .lw rd _ _ | .ld rd _ _ | .lbu rd _ _ | .lhu rd _ _ | .lwu rd _ _ => some rd
  | .mul rd _ _ | .mulh rd _ _ | .mulhsu rd _ _ | .mulhu rd _ _ | .mulw rd _ _ | .div rd _ _ | .divu rd _ _ => some rd
  | .rem rd _ _ | .remu rd _ _ | .divw rd _ _ | .divuw rd _ _ | .remw rd _ _ | .remuw rd _ _ => some rd
  | .lrW rd _ _ _ | .lrD rd _ _ _ | .scW rd _ _ _ _ | .scD rd _ _ _ _ => some rd
  | .amoswapW rd _ _ _ _ | .amoaddW rd _ _ _ _ | .amoxorW rd _ _ _ _ | .amoandW rd _ _ _ _ => some rd
  | .amoorW rd _ _ _ _ | .amominW rd _ _ _ _ | .amomaxW rd _ _ _ _ | .amominuW rd _ _ _ _ => some rd
  | .amomaxuW rd _ _ _ _ | .amoswapD rd _ _ _ _ | .amoaddD rd _ _ _ _ | .amoxorD rd _ _ _ _ => some rd
  | .amoandD rd _ _ _ _ | .amoorD rd _ _ _ _ | .amominD rd _ _ _ _ | .amomaxD rd _ _ _ _ => some rd
  | .amominuD rd _ _ _ _ | .amomaxuD rd _ _ _ _ => some rd
  | .csrrw rd _ _ | .csrrs rd _ _ | .csrrc rd _ _ | .csrrwi rd _ _ | .csrrsi rd _ _ | .csrrci rd _ _ => some rd
  | .cAddi4spn rd _ | .cLw rd _ _ | .cLd rd _ _ | .cSrli rd _ | .cSrai rd _ | .cAndi rd _ => some (creg rd)
  | .cSub rd _ | .cXor rd _ | .cOr rd _ | .cAnd rd _ | .cSubw rd _ | .cAddw rd _ => some (creg rd)
  | .cAddi rd _ | .cAddiw rd _ | .cLi rd _ | .cLui rd _ | .cSlli rd _ | .cLwsp rd _ | .cLdsp rd _ => some rd
  | .cMv rd _ | .cAdd rd _ => some rd
  | .cAddi16sp _ => some 2
  | .cJalr _ => some 1
  | _ => none

/-- The instructions that make a data write: stores, SC and the AMOs. -/
def writesMemory : Instr → Bool
  | .sb _ _ _ | .sh _ _ _ | .sw _ _ _ | .sd _ _ _ | .scW _ _ _ _ _ | .scD _ _ _ _ _ => true
  | .amoswapW _ _ _ _ _ | .amoaddW _ _ _ _ _ | .amoxorW _ _ _ _ _ | .amoandW _ _ _ _ _ => true
  | .amoorW _ _ _ _ _ | .amominW _ _ _ _ _ | .amomaxW _ _ _ _ _ | .amominuW _ _ _ _ _ => true
  | .amomaxuW _ _ _ _ _ | .amoswapD _ _ _ _ _ | .amoaddD _ _ _ _ _ | .amoxorD _ _ _ _ _ => true
  | .amoandD _ _ _ _ _ | .amoorD _ _ _ _ _ | .amominD _ _ _ _ _ | .amomaxD _ _ _ _ _ => true
  | .amominuD _ _ _ _ _ | .amomaxuD _ _ _ _ _ => true
  | .cSw _ _ _ | .cSd _ _ _ | .cSwsp _ _ | .cSdsp _ _ => true
  | _ => false

/-- The CSR number of a CSR instruction. -/
def csrOf : Instr → Option CsrNum
  | .csrrw _ _ a | .csrrs _ _ a | .csrrc _ _ a | .csrrwi _ _ a | .csrrsi _ _ a | .csrrci _ _ a => some a
  | _ => none

def isLoadReserved : Instr → Bool
  | .lrW _ _ _ _ | .lrD _ _ _ _ => true
  | _ => false

def isStoreConditional : Instr → Bool
  | .scW _ _ _ _ _ | .scD _ _ _ _ _ => true
  | _ => false

/-- The children of a node, in order: start, end, device, children (R100). -/
def children : Nodes → List (Word × Word × Device × Nodes)
  | .none => []
  | .node st sp d sub next => (st, sp, d, sub) :: children next

/-- The child's range holds the address (R102). -/
def holds (c : Word × Word × Device × Nodes) (a : Word) : Prop :=
  c.1.toNat ≤ a.toNat ∧ a.toNat ≤ c.2.1.toNat

/-- The table of R50: each stored number and its slot. -/
def storedTable : List (CsrNum × CsrName) :=
  [(0x100, .sstatus), (0x102, .sedeleg), (0x103, .sideleg), (0x104, .sie), (0x105, .stvec), (0x106, .scounteren),
   (0x140, .sscratch), (0x141, .sepc), (0x142, .scause), (0x143, .stval), (0x144, .sip), (0x180, .satp),
   (0x300, .mstatus), (0x301, .misa), (0x302, .medeleg), (0x303, .mideleg), (0x304, .mie), (0x305, .mtvec),
   (0x306, .mcounteren), (0x340, .mscratch), (0x341, .mepc), (0x342, .mcause), (0x343, .mtval), (0x344, .mip),
   (0xF11, .mvendorid), (0xF12, .marchid), (0xF13, .mimpid), (0xF14, .mhartid)]

def computedTable : List (CsrNum × CounterId) := [(0xC00, .cycle), (0xC01, .time), (0xC02, .instret)]

/-- hpmcounter3 to 31, mhpmcounter3 to 31, mhpmevent3 to 31 (R67). -/
def unsupportedNumber (a : CsrNum) : Prop :=
  (0xC03 ≤ a.toNat ∧ a.toNat ≤ 0xC1F) ∨ (0xB03 ≤ a.toNat ∧ a.toNat ≤ 0xB1F) ∨ (0x323 ≤ a.toNat ∧ a.toNat ≤ 0x33F)

/-- The target of an interrupt is Supervisor mode (R521). -/
def irqToS (s : State) (c : BitVec 6) : Prop := s.csr.mideleg.getLsbD c.toNat = true ∧ s.priv ≠ .machine

/-- The enable rule of R521. -/
def irqOn (s : State) (c : BitVec 6) : Prop :=
  (irqToS s c → s.csr.sstatus.getLsbD 1 = true ∧ s.csr.sie.getLsbD c.toNat = true) ∧
  (¬ irqToS s c → s.csr.mstatus.getLsbD 3 = true ∧ s.csr.mie.getLsbD c.toNat = true)

/-- The state after an interrupt with code c is taken: the pending bit of the target mode set, then trap entry. -/
def IrqTaken (c : BitVec 6) (s t : State) : Prop :=
  (irqToS s c → t = trapEnter s.pc (BitVec.ofNat 64 (2 ^ 63 + c.toNat)) 0
    { s with csr := { s.csr with sip := s.csr.sip ||| BitVec.ofNat 64 (2 ^ c.toNat) } }) ∧
  (¬ irqToS s c → t = trapEnter s.pc (BitVec.ofNat 64 (2 ^ 63 + c.toNat)) 0
    { s with csr := { s.csr with mip := s.csr.mip ||| BitVec.ofNat 64 (2 ^ c.toNat) } })

/-- What the interrupt check does with the sampled levels, in a state that has consumed the sample. -/
def IrqCheck (i : IrqSample) (s t : State) : Prop :=
  let ext := i.external = true ∧ irqOn s s.plat.extIrqCode
  let tim := i.timer = true ∧ irqOn s s.plat.timerIrqCode
  (ext → IrqTaken s.plat.extIrqCode s t) ∧ (¬ ext → tim → IrqTaken s.plat.timerIrqCode s t) ∧ (¬ ext → ¬ tim → t = s)

end Sys2Proof.Claims

open Sys2Proof.Claims

/-! ## Encoding -/

/-- O1. Every operand of every instruction at every value the encoding admits survives encoding and decoding. -/
def Obligations.DecodeEncodeRoundTrip : Prop :=
  ∀ i : Instr, WellFormed i → decode (encode i) = .ok i

/-- O2. Decoding drops no bit and answers only well-formed instructions: the instruction read from a word has that word
as its encoding (so no two words are one instruction, no word falls through to a neighbour). That no bit is dropped, the
fields R171 gives as 0 in the decoder's tuple included (unused fields of FENCE, FENCE.I, the atomics, C.NOP and the
refused rows), is the model's own choice of what `Instr` keeps: log entry 26 (DESIGN CHOICE). The tuple of R171 is
`decodeTuple`. -/
def Obligations.EncodeDecodeRoundTrip : Prop :=
  ∀ (b : InstBits) (i : Instr), decode b = .ok i → WellFormed i ∧ encode i = b

/-- O3. Words of the spec's own examples, one of each family, and what they decode to. -/
def Obligations.ExampleWordsDecode : Prop :=
  decode (.full 0x007302B3) = .ok (.add 5 6 7) ∧
  decode (.full 0xFFF30293) = .ok (.addi 5 6 0xFFF) ∧
  decode (.full 0x03F31293) = .ok (.slli 5 6 63) ∧
  decode (.full 0x800002B7) = .ok (.lui 5 0x80000) ∧
  decode (.full 0x020000EF) = .ok (.jal 1 0x10) ∧
  decode (.full 0xFE7308E3) = .ok (.beq 6 7 0xFF8) ∧
  decode (.full 0xFF833283) = .ok (.ld 5 6 0xFF8) ∧
  decode (.full 0x007300A3) = .ok (.sb 6 7 1) ∧
  decode (.full 0x027302B3) = .ok (.mul 5 6 7) ∧
  decode (.full 0x160322AF) = .ok (.lrW 5 6 1 1) ∧
  decode (.full 0x187332AF) = .ok (.scD 5 6 7 0 0) ∧
  decode (.full 0x067332AF) = .ok (.amoaddD 5 6 7 1 1) ∧
  decode (.full 0x340312F3) = .ok (.csrrw 5 6 0x340) ∧
  decode (.full 0x340FD2F3) = .ok (.csrrwi 5 31 0x340) ∧
  decode (.full 0x12628073) = .ok (.sfenceVma 5 6) ∧
  decode (.full 0x8330000F) = .ok (.fence 8 3 3 0 0) ∧
  decode (.full 0x30200073) = .ok .mret ∧
  decode (.half 0x1FE0) = .ok (.cAddi4spn 0 255) ∧
  decode (.half 0x4144) = .ok (.cLw 1 2 1) ∧
  decode (.half 0xA005) = .ok (.cJ 0x10) ∧
  decode (.half 0x52FE) = .ok (.cLwsp 5 63) ∧
  decode (.half 0x9282) = .ok (.cJalr 5) ∧
  decode (.half 0x9002) = .ok .cEbreak

/-- O4. The decoder on bytes: the bytes of an encoding, whatever follows them, give the instruction and what follows;
their number is the instruction's length (R33, R170). -/
def Obligations.DecodeBytesOfEncoding : Prop :=
  ∀ (i : Instr) (rest : List Byte), WellFormed i →
    decodeBytes ((encode i).bytes ++ rest) = .ok (i, rest) ∧ (encode i).bytes.length = i.ilen

/-- O5. The decoder has no other result than an instruction, an unknown encoding with exactly the bits it was given, and
(of 16-bit forms) a reserved compressed form; the reserved forms of R216 are exactly the listed ones. -/
def Obligations.DecodeOutcomes : Prop :=
  (∀ w, (∃ i, decode (.full w) = .ok i) ∨ decode (.full w) = .error (.unknownEncoding w)) ∧
  (∀ p, (∃ i, decode (.half p) = .ok i) ∨ decode (.half p) = .error .reservedCompressed ∨
    decode (.half p) = .error (.unknownEncoding (p.setWidth 32))) ∧
  (∀ p, decode (.half p) = .error .reservedCompressed ↔
    (p &&& 0xFFE3 = 0x0000 ∧ p ≠ 0) ∨ p &&& 0xEF83 = 0x2001 ∨ p = 0x6101 ∨
      (p &&& 0xF07F = 0x6001 ∧ p &&& 0x0F80 ≠ 0x0100) ∨ p &&& 0xEF83 = 0x4002 ∨ p &&& 0xEF83 = 0x6002 ∨ p = 0x8002) ∧
  (∀ p, decode (.half p) = .error (.unknownEncoding (p.setWidth 32)) ↔ p.extractLsb' 0 2 = 3)

/-! ## Integer registers -/

/-- O6. R30: x0 reads as 0 and discards writes; every other register holds what was last written to it; neither the
privilege level, nor a trap, nor the interrupt check changes or switches any of them. -/
def Obligations.RegisterFile : Prop :=
  ∀ (s : State) (i j : RegIdx) (v : Word),
    s.getX 0 = 0 ∧ s.setX 0 v = s ∧
    (i ≠ 0 → (s.setX i v).getX i = v) ∧ (j ≠ i → (s.setX i v).getX j = s.getX j) ∧
    (∀ p, ({ s with priv := p } : State).getX i = s.getX i) ∧
    (∀ epc cause tval, (trapEnter epc cause tval s).getX i = s.getX i) ∧
    (handleInterrupt s).getX i = s.getX i

/-! ## Integer computation -/

/-- O7. R231 to R241: the upper-immediate and the 64-bit register-immediate instructions. -/
def Obligations.ImmediateForms : Prop :=
  ∀ (s : State) (rd rs1 : RegIdx) (imm : BitVec 12) (imm20 : BitVec 20) (shamt : BitVec 6),
    Does (wordU 0b0110111 rd imm20) (.lui rd imm20) s (put s rd ((imm20 ++ 0#12 : BitVec 32).signExtend 64) 4) ∧
    Does (wordU 0b0010111 rd imm20) (.auipc rd imm20) s
      (put s rd (s.pc + (imm20 ++ 0#12 : BitVec 32).signExtend 64) 4) ∧
    Does (wordI 0b000 0b0010011 rd rs1 imm) (.addi rd rs1 imm) s (put s rd (s.getX rs1 + sx12 imm) 4) ∧
    Does (wordI 0b010 0b0010011 rd rs1 imm) (.slti rd rs1 imm) s
      (put s rd (flag ((s.getX rs1).toInt < imm.toInt)) 4) ∧
    Does (wordI 0b011 0b0010011 rd rs1 imm) (.sltiu rd rs1 imm) s
      (put s rd (flag ((s.getX rs1).toNat < (sx12 imm).toNat)) 4) ∧
    Does (wordI 0b100 0b0010011 rd rs1 imm) (.xori rd rs1 imm) s (put s rd (s.getX rs1 ^^^ sx12 imm) 4) ∧
    Does (wordI 0b110 0b0010011 rd rs1 imm) (.ori rd rs1 imm) s (put s rd (s.getX rs1 ||| sx12 imm) 4) ∧
    Does (wordI 0b111 0b0010011 rd rs1 imm) (.andi rd rs1 imm) s (put s rd (s.getX rs1 &&& sx12 imm) 4) ∧
    Does (wordSh 0b000000 0b001 rd rs1 shamt) (.slli rd rs1 shamt) s (put s rd (s.getX rs1 <<< shamt.toNat) 4) ∧
    Does (wordSh 0b000000 0b101 rd rs1 shamt) (.srli rd rs1 shamt) s (put s rd (s.getX rs1 >>> shamt.toNat) 4) ∧
    Does (wordSh 0b010000 0b101 rd rs1 shamt) (.srai rd rs1 shamt) s
      (put s rd ((s.getX rs1).sshiftRight shamt.toNat) 4)

/-- O8. R242 to R245 and R256 to R260: the word forms compute on bits 31:0 and write the sign extension. -/
def Obligations.WordForms : Prop :=
  ∀ (s : State) (rd rs1 rs2 : RegIdx) (imm : BitVec 12) (shamt : BitVec 5),
    let a := s.getX rs1
    let b := s.getX rs2
    let n := b.toNat % 32
    Does (wordI 0b000 0b0011011 rd rs1 imm) (.addiw rd rs1 imm) s
      (put s rd ((lo (a + sx12 imm)).signExtend 64) 4) ∧
    Does (wordR 0b0000000 0b001 0b0011011 rd rs1 shamt) (.slliw rd rs1 shamt) s
      (put s rd ((lo a <<< shamt.toNat).signExtend 64) 4) ∧
    Does (wordR 0b0000000 0b101 0b0011011 rd rs1 shamt) (.srliw rd rs1 shamt) s
      (put s rd ((lo a >>> shamt.toNat).signExtend 64) 4) ∧
    Does (wordR 0b0100000 0b101 0b0011011 rd rs1 shamt) (.sraiw rd rs1 shamt) s
      (put s rd (((lo a).sshiftRight shamt.toNat).signExtend 64) 4) ∧
    Does (wordR 0b0000000 0b000 0b0111011 rd rs1 rs2) (.addw rd rs1 rs2) s
      (put s rd ((lo (a + b)).signExtend 64) 4) ∧
    Does (wordR 0b0100000 0b000 0b0111011 rd rs1 rs2) (.subw rd rs1 rs2) s
      (put s rd ((lo (a - b)).signExtend 64) 4) ∧
    Does (wordR 0b0000000 0b001 0b0111011 rd rs1 rs2) (.sllw rd rs1 rs2) s
      (put s rd ((lo a <<< n).signExtend 64) 4) ∧
    Does (wordR 0b0000000 0b101 0b0111011 rd rs1 rs2) (.srlw rd rs1 rs2) s
      (put s rd ((lo a >>> n).signExtend 64) 4) ∧
    Does (wordR 0b0100000 0b101 0b0111011 rd rs1 rs2) (.sraw rd rs1 rs2) s
      (put s rd (((lo a).sshiftRight n).signExtend 64) 4)

/-- O9. R246 to R255: the register-register instructions; a shift uses the low six bits of its count. -/
def Obligations.RegisterForms : Prop :=
  ∀ (s : State) (rd rs1 rs2 : RegIdx),
    let a := s.getX rs1
    let b := s.getX rs2
    let n := b.toNat % 64
    Does (wordR 0b0000000 0b000 0b0110011 rd rs1 rs2) (.add rd rs1 rs2) s (put s rd (a + b) 4) ∧
    Does (wordR 0b0100000 0b000 0b0110011 rd rs1 rs2) (.sub rd rs1 rs2) s (put s rd (a - b) 4) ∧
    Does (wordR 0b0000000 0b001 0b0110011 rd rs1 rs2) (.sll rd rs1 rs2) s (put s rd (a <<< n) 4) ∧
    Does (wordR 0b0000000 0b010 0b0110011 rd rs1 rs2) (.slt rd rs1 rs2) s (put s rd (flag (a.toInt < b.toInt)) 4) ∧
    Does (wordR 0b0000000 0b011 0b0110011 rd rs1 rs2) (.sltu rd rs1 rs2) s (put s rd (flag (a.toNat < b.toNat)) 4) ∧
    Does (wordR 0b0000000 0b100 0b0110011 rd rs1 rs2) (.xor rd rs1 rs2) s (put s rd (a ^^^ b) 4) ∧
    Does (wordR 0b0000000 0b101 0b0110011 rd rs1 rs2) (.srl rd rs1 rs2) s (put s rd (a >>> n) 4) ∧
    Does (wordR 0b0100000 0b101 0b0110011 rd rs1 rs2) (.sra rd rs1 rs2) s (put s rd (a.sshiftRight n) 4) ∧
    Does (wordR 0b0000000 0b110 0b0110011 rd rs1 rs2) (.or rd rs1 rs2) s (put s rd (a ||| b) 4) ∧
    Does (wordR 0b0000000 0b111 0b0110011 rd rs1 rs2) (.and rd rs1 rs2) s (put s rd (a &&& b) 4)

/-- O10. R331 to R335: the low and the high half of the exact integer product, each operand read as signed or unsigned
as the instruction says. -/
def Obligations.MultiplyForms : Prop :=
  ∀ (s : State) (rd rs1 rs2 : RegIdx),
    let a := s.getX rs1
    let b := s.getX rs2
    Does (wordR 0b0000001 0b000 0b0110011 rd rs1 rs2) (.mul rd rs1 rs2) s
      (put s rd (BitVec.ofInt 64 (a.toInt * b.toInt)) 4) ∧
    Does (wordR 0b0000001 0b001 0b0110011 rd rs1 rs2) (.mulh rd rs1 rs2) s
      (put s rd (BitVec.ofInt 64 (a.toInt * b.toInt / 2 ^ 64)) 4) ∧
    Does (wordR 0b0000001 0b010 0b0110011 rd rs1 rs2) (.mulhsu rd rs1 rs2) s
      (put s rd (BitVec.ofInt 64 (a.toInt * (b.toNat : Int) / 2 ^ 64)) 4) ∧
    Does (wordR 0b0000001 0b011 0b0110011 rd rs1 rs2) (.mulhu rd rs1 rs2) s
      (put s rd (BitVec.ofNat 64 (a.toNat * b.toNat / 2 ^ 64)) 4) ∧
    Does (wordR 0b0000001 0b000 0b0111011 rd rs1 rs2) (.mulw rd rs1 rs2) s
      (put s rd ((BitVec.ofInt 32 ((lo a).toInt * (lo b).toInt)).signExtend 64) 4)

/-- O11. R336 to R343: division rounds toward zero, with defined results for divisor 0 and for overflow; nothing
traps. -/
def Obligations.DivideForms : Prop :=
  ∀ (s : State) (rd rs1 rs2 : RegIdx),
    let a := s.getX rs1
    let b := s.getX rs2
    let aw := lo a
    let bw := lo b
    Does (wordR 0b0000001 0b100 0b0110011 rd rs1 rs2) (.div rd rs1 rs2) s
      (put s rd (if b = 0 then 0xFFFFFFFFFFFFFFFF
        else if a.toInt = -2 ^ 63 ∧ b.toInt = -1 then 0x8000000000000000
        else BitVec.ofInt 64 (a.toInt.tdiv b.toInt)) 4) ∧
    Does (wordR 0b0000001 0b101 0b0110011 rd rs1 rs2) (.divu rd rs1 rs2) s
      (put s rd (if b = 0 then 0xFFFFFFFFFFFFFFFF else BitVec.ofNat 64 (a.toNat / b.toNat)) 4) ∧
    Does (wordR 0b0000001 0b110 0b0110011 rd rs1 rs2) (.rem rd rs1 rs2) s
      (put s rd (if b = 0 then a
        else if a.toInt = -2 ^ 63 ∧ b.toInt = -1 then 0
        else BitVec.ofInt 64 (a.toInt - b.toInt * a.toInt.tdiv b.toInt)) 4) ∧
    Does (wordR 0b0000001 0b111 0b0110011 rd rs1 rs2) (.remu rd rs1 rs2) s
      (put s rd (if b = 0 then a else BitVec.ofNat 64 (a.toNat % b.toNat)) 4) ∧
    Does (wordR 0b0000001 0b100 0b0111011 rd rs1 rs2) (.divw rd rs1 rs2) s
      (put s rd (if bw = 0 then 0xFFFFFFFFFFFFFFFF
        else if aw.toInt = -2 ^ 31 ∧ bw.toInt = -1 then 0xFFFFFFFF80000000
        else (BitVec.ofInt 32 (aw.toInt.tdiv bw.toInt)).signExtend 64) 4) ∧
    Does (wordR 0b0000001 0b101 0b0111011 rd rs1 rs2) (.divuw rd rs1 rs2) s
      (put s rd (if bw = 0 then 0xFFFFFFFFFFFFFFFF else (BitVec.ofNat 32 (aw.toNat / bw.toNat)).signExtend 64) 4) ∧
    Does (wordR 0b0000001 0b110 0b0111011 rd rs1 rs2) (.remw rd rs1 rs2) s
      (put s rd (if bw = 0 then aw.signExtend 64
        else if aw.toInt = -2 ^ 31 ∧ bw.toInt = -1 then 0
        else (BitVec.ofInt 32 (aw.toInt - bw.toInt * aw.toInt.tdiv bw.toInt)).signExtend 64) 4) ∧
    Does (wordR 0b0000001 0b111 0b0111011 rd rs1 rs2) (.remuw rd rs1 rs2) s
      (put s rd (if bw = 0 then aw.signExtend 64 else (BitVec.ofNat 32 (aw.toNat % bw.toNat)).signExtend 64) 4)

/-- O12. The law of division (R330): dividend = divisor * quotient + remainder, for a divisor that is not zero, in the
overflow case too; a nonzero signed remainder, of 64 bits and of 32, has the sign of the dividend and is smaller than the
divisor. (R330 marks this sentence as general knowledge.) -/
def Obligations.DivisionLaw : Prop :=
  ∀ (s q r : State) (d e rs1 rs2 : RegIdx), d ≠ 0 → e ≠ 0 →
    (s.getX rs2 ≠ 0 →
      (exec (.div d rs1 rs2) s = .next q → exec (.rem e rs1 rs2) s = .next r →
        s.getX rs2 * q.getX d + r.getX e = s.getX rs1 ∧
        (r.getX e).toInt.natAbs < (s.getX rs2).toInt.natAbs ∧
        (r.getX e ≠ 0 → ((r.getX e).toInt < 0 ↔ (s.getX rs1).toInt < 0))) ∧
      (exec (.divu d rs1 rs2) s = .next q → exec (.remu e rs1 rs2) s = .next r →
        s.getX rs2 * q.getX d + r.getX e = s.getX rs1 ∧ (r.getX e).toNat < (s.getX rs2).toNat)) ∧
    (lo (s.getX rs2) ≠ 0 →
      (exec (.divw d rs1 rs2) s = .next q → exec (.remw e rs1 rs2) s = .next r →
        lo (s.getX rs2) * lo (q.getX d) + lo (r.getX e) = lo (s.getX rs1) ∧
        (lo (r.getX e)).toInt.natAbs < (lo (s.getX rs2)).toInt.natAbs ∧
        (lo (r.getX e) ≠ 0 → ((lo (r.getX e)).toInt < 0 ↔ (lo (s.getX rs1)).toInt < 0))) ∧
      (exec (.divuw d rs1 rs2) s = .next q → exec (.remuw e rs1 rs2) s = .next r →
        lo (s.getX rs2) * lo (q.getX d) + lo (r.getX e) = lo (s.getX rs1) ∧
        (lo (r.getX e)).toNat < (lo (s.getX rs2)).toNat))

/-! ## Control transfer -/

/-- O13. R293 and R295 to R300: JAL links the next sequential pc; a branch compares two registers and goes to
`pc + offset` or on. -/
def Obligations.JalAndBranches : Prop :=
  ∀ (s : State) (rd rs1 rs2 : RegIdx) (off20 : BitVec 20) (off : BitVec 12),
    let a := s.getX rs1
    let b := s.getX rs2
    let t := s.pc + (off ++ 0#1 : BitVec 13).signExtend 64
    let n := s.pc + 4
    Does (wordJ rd off20) (.jal rd off20) s
      ((s.setX rd n).setPc (s.pc + (off20 ++ 0#1 : BitVec 21).signExtend 64)) ∧
    Does (wordB 0b000 rs1 rs2 off) (.beq rs1 rs2 off) s (s.setPc (if a = b then t else n)) ∧
    Does (wordB 0b001 rs1 rs2 off) (.bne rs1 rs2 off) s (s.setPc (if a = b then n else t)) ∧
    Does (wordB 0b100 rs1 rs2 off) (.blt rs1 rs2 off) s (s.setPc (if a.toInt < b.toInt then t else n)) ∧
    Does (wordB 0b101 rs1 rs2 off) (.bge rs1 rs2 off) s (s.setPc (if b.toInt ≤ a.toInt then t else n)) ∧
    Does (wordB 0b110 rs1 rs2 off) (.bltu rs1 rs2 off) s (s.setPc (if a.toNat < b.toNat then t else n)) ∧
    Does (wordB 0b111 rs1 rs2 off) (.bgeu rs1 rs2 off) s (s.setPc (if b.toNat ≤ a.toNat then t else n))

/-- O14. JALR (R294): the target is computed from the old register and keeps bit 0 (spec decision D7, log entry 19); the
link register holds the next sequential pc even where it is the base register. -/
def Obligations.IndirectJump : Prop :=
  ∀ (s : State) (rd rs1 : RegIdx) (imm : BitVec 12),
    Does (wordI 0b000 0b1100111 rd rs1 imm) (.jalr rd rs1 imm) s
      ((s.setX rd (s.pc + 4)).setPc (s.getX rs1 + sx12 imm))

/-! ## Memory -/

/-- O15. R313 to R319, with the checks of R310 in its order (spec decisions D8, D32; byte order D1); what a device the
spec leaves undescribed answers and does is the model's own (log entry 9). -/
def Obligations.Loads : Prop :=
  ∀ (s : State) (rd rs1 : RegIdx) (imm : BitVec 12),
    let va := s.getX rs1 + sx12 imm
    (decode (wordI 0b000 0b0000011 rd rs1 imm) = .ok (.lb rd rs1 imm) ∧
      LoadRule (.lb rd rs1 imm) 1 va rd (fun v => (v.setWidth 8).signExtend 64) 4 s) ∧
    (decode (wordI 0b001 0b0000011 rd rs1 imm) = .ok (.lh rd rs1 imm) ∧
      LoadRule (.lh rd rs1 imm) 2 va rd (fun v => (v.setWidth 16).signExtend 64) 4 s) ∧
    (decode (wordI 0b010 0b0000011 rd rs1 imm) = .ok (.lw rd rs1 imm) ∧
      LoadRule (.lw rd rs1 imm) 4 va rd (fun v => (v.setWidth 32).signExtend 64) 4 s) ∧
    (decode (wordI 0b011 0b0000011 rd rs1 imm) = .ok (.ld rd rs1 imm) ∧
      LoadRule (.ld rd rs1 imm) 8 va rd id 4 s) ∧
    (decode (wordI 0b100 0b0000011 rd rs1 imm) = .ok (.lbu rd rs1 imm) ∧
      LoadRule (.lbu rd rs1 imm) 1 va rd (fun v => (v.setWidth 8).setWidth 64) 4 s) ∧
    (decode (wordI 0b101 0b0000011 rd rs1 imm) = .ok (.lhu rd rs1 imm) ∧
      LoadRule (.lhu rd rs1 imm) 2 va rd (fun v => (v.setWidth 16).setWidth 64) 4 s) ∧
    (decode (wordI 0b110 0b0000011 rd rs1 imm) = .ok (.lwu rd rs1 imm) ∧
      LoadRule (.lwu rd rs1 imm) 4 va rd (fun v => (v.setWidth 32).setWidth 64) 4 s)

/-- O16. R320 to R323, with the checks of R311 in its order (spec decisions D8, D32; byte order D1); what a ROM or a
device the spec leaves undescribed does is the model's own (log entry 9). -/
def Obligations.Stores : Prop :=
  ∀ (s : State) (rs1 rs2 : RegIdx) (imm : BitVec 12),
    let va := s.getX rs1 + sx12 imm
    let v := s.getX rs2
    (decode (wordS 0b000 rs1 rs2 imm) = .ok (.sb rs1 rs2 imm) ∧ StoreRule (.sb rs1 rs2 imm) 1 va v 4 s) ∧
    (decode (wordS 0b001 rs1 rs2 imm) = .ok (.sh rs1 rs2 imm) ∧ StoreRule (.sh rs1 rs2 imm) 2 va v 4 s) ∧
    (decode (wordS 0b010 rs1 rs2 imm) = .ok (.sw rs1 rs2 imm) ∧ StoreRule (.sw rs1 rs2 imm) 4 va v 4 s) ∧
    (decode (wordS 0b011 rs1 rs2 imm) = .ok (.sd rs1 rs2 imm) ∧ StoreRule (.sd rs1 rs2 imm) 8 va v 4 s)

/-- O17. LR.W and LR.D (R352, R353): a load that sets the reservation; the reservation is the spec's own (decision D29,
log entry 23), and LR is a load for its exceptions by decision D15. What a device the spec leaves undescribed answers and
does is the model's own (log entry 9, DESIGN CHOICE). -/
def Obligations.LoadReserved : Prop :=
  ∀ (s : State) (rd rs1 : RegIdx) (aq rl : BitVec 1),
    (decode (wordAmo 0b00010 0b010 rd rs1 0 aq rl) = .ok (.lrW rd rs1 aq rl) ∧
      LrRule (.lrW rd rs1 aq rl) .word (s.getX rs1) rd (fun v => (lo v).signExtend 64) s) ∧
    (decode (wordAmo 0b00010 0b011 rd rs1 0 aq rl) = .ok (.lrD rd rs1 aq rl) ∧
      LrRule (.lrD rd rs1 aq rl) .double (s.getX rs1) rd id s)

/-- O18. SC.W and SC.D (R354, R355): both checks come before the reservation is looked at. The reservation is spec
decision D29 and SC is a store for its exceptions by decision D15 (log entry 23); what a ROM or a device the spec leaves
undescribed does with the store is the model's own (log entry 9, DESIGN CHOICE). -/
def Obligations.StoreConditional : Prop :=
  ∀ (s : State) (rd rs1 rs2 : RegIdx) (aq rl : BitVec 1),
    (decode (wordAmo 0b00011 0b010 rd rs1 rs2 aq rl) = .ok (.scW rd rs1 rs2 aq rl) ∧
      ScRule (.scW rd rs1 rs2 aq rl) .word (s.getX rs1) (s.getX rs2) rd s) ∧
    (decode (wordAmo 0b00011 0b011 rd rs1 rs2 aq rl) = .ok (.scD rd rs1 rs2 aq rl) ∧
      ScRule (.scD rd rs1 rs2 aq rl) .double (s.getX rs1) (s.getX rs2) rd s)

/-- O19. R356 to R364: the word AMOs; an AMO is a store for its exceptions (spec decision D15), and leaves the
reservation alone (D29, D30; log entry 23). What a ROM or a device the spec leaves undescribed answers and does is the
model's own, free values (log entry 9, DESIGN CHOICE). -/
def Obligations.AmoWordForms : Prop :=
  ∀ (s : State) (rd rs1 rs2 : RegIdx) (aq rl : BitVec 1),
    (decode (wordAmo 0b00001 0b010 rd rs1 rs2 aq rl) = .ok (.amoswapW rd rs1 rs2 aq rl) ∧
      AmoWord (.amoswapW rd rs1 rs2 aq rl) .swap rd rs1 rs2 (fun _ v => v) s) ∧
    (decode (wordAmo 0b00000 0b010 rd rs1 rs2 aq rl) = .ok (.amoaddW rd rs1 rs2 aq rl) ∧
      AmoWord (.amoaddW rd rs1 rs2 aq rl) .add rd rs1 rs2 (fun o v => o + v) s) ∧
    (decode (wordAmo 0b00100 0b010 rd rs1 rs2 aq rl) = .ok (.amoxorW rd rs1 rs2 aq rl) ∧
      AmoWord (.amoxorW rd rs1 rs2 aq rl) .xor rd rs1 rs2 (fun o v => o ^^^ v) s) ∧
    (decode (wordAmo 0b01100 0b010 rd rs1 rs2 aq rl) = .ok (.amoandW rd rs1 rs2 aq rl) ∧
      AmoWord (.amoandW rd rs1 rs2 aq rl) .and rd rs1 rs2 (fun o v => o &&& v) s) ∧
    (decode (wordAmo 0b01000 0b010 rd rs1 rs2 aq rl) = .ok (.amoorW rd rs1 rs2 aq rl) ∧
      AmoWord (.amoorW rd rs1 rs2 aq rl) .or rd rs1 rs2 (fun o v => o ||| v) s) ∧
    (decode (wordAmo 0b10000 0b010 rd rs1 rs2 aq rl) = .ok (.amominW rd rs1 rs2 aq rl) ∧
      AmoWord (.amominW rd rs1 rs2 aq rl) .min rd rs1 rs2 (fun o v => if o.toInt < v.toInt then o else v) s) ∧
    (decode (wordAmo 0b10100 0b010 rd rs1 rs2 aq rl) = .ok (.amomaxW rd rs1 rs2 aq rl) ∧
      AmoWord (.amomaxW rd rs1 rs2 aq rl) .max rd rs1 rs2 (fun o v => if v.toInt < o.toInt then o else v) s) ∧
    (decode (wordAmo 0b11000 0b010 rd rs1 rs2 aq rl) = .ok (.amominuW rd rs1 rs2 aq rl) ∧
      AmoWord (.amominuW rd rs1 rs2 aq rl) .minu rd rs1 rs2 (fun o v => if o.toNat < v.toNat then o else v) s) ∧
    (decode (wordAmo 0b11100 0b010 rd rs1 rs2 aq rl) = .ok (.amomaxuW rd rs1 rs2 aq rl) ∧
      AmoWord (.amomaxuW rd rs1 rs2 aq rl) .maxu rd rs1 rs2 (fun o v => if v.toNat < o.toNat then o else v) s)

/-- O20. R365 to R373: the doubleword AMOs; an AMO is a store for its exceptions (spec decision D15), and leaves the
reservation alone (D29, D30; log entry 23). What a ROM or a device the spec leaves undescribed answers and does is the
model's own, free values (log entry 9, DESIGN CHOICE). -/
def Obligations.AmoDoubleForms : Prop :=
  ∀ (s : State) (rd rs1 rs2 : RegIdx) (aq rl : BitVec 1),
    (decode (wordAmo 0b00001 0b011 rd rs1 rs2 aq rl) = .ok (.amoswapD rd rs1 rs2 aq rl) ∧
      AmoDouble (.amoswapD rd rs1 rs2 aq rl) .swap rd rs1 rs2 (fun _ v => v) s) ∧
    (decode (wordAmo 0b00000 0b011 rd rs1 rs2 aq rl) = .ok (.amoaddD rd rs1 rs2 aq rl) ∧
      AmoDouble (.amoaddD rd rs1 rs2 aq rl) .add rd rs1 rs2 (fun o v => o + v) s) ∧
    (decode (wordAmo 0b00100 0b011 rd rs1 rs2 aq rl) = .ok (.amoxorD rd rs1 rs2 aq rl) ∧
      AmoDouble (.amoxorD rd rs1 rs2 aq rl) .xor rd rs1 rs2 (fun o v => o ^^^ v) s) ∧
    (decode (wordAmo 0b01100 0b011 rd rs1 rs2 aq rl) = .ok (.amoandD rd rs1 rs2 aq rl) ∧
      AmoDouble (.amoandD rd rs1 rs2 aq rl) .and rd rs1 rs2 (fun o v => o &&& v) s) ∧
    (decode (wordAmo 0b01000 0b011 rd rs1 rs2 aq rl) = .ok (.amoorD rd rs1 rs2 aq rl) ∧
      AmoDouble (.amoorD rd rs1 rs2 aq rl) .or rd rs1 rs2 (fun o v => o ||| v) s) ∧
    (decode (wordAmo 0b10000 0b011 rd rs1 rs2 aq rl) = .ok (.amominD rd rs1 rs2 aq rl) ∧
      AmoDouble (.amominD rd rs1 rs2 aq rl) .min rd rs1 rs2 (fun o v => if o.toInt < v.toInt then o else v) s) ∧
    (decode (wordAmo 0b10100 0b011 rd rs1 rs2 aq rl) = .ok (.amomaxD rd rs1 rs2 aq rl) ∧
      AmoDouble (.amomaxD rd rs1 rs2 aq rl) .max rd rs1 rs2 (fun o v => if v.toInt < o.toInt then o else v) s) ∧
    (decode (wordAmo 0b11000 0b011 rd rs1 rs2 aq rl) = .ok (.amominuD rd rs1 rs2 aq rl) ∧
      AmoDouble (.amominuD rd rs1 rs2 aq rl) .minu rd rs1 rs2 (fun o v => if o.toNat < v.toNat then o else v) s) ∧
    (decode (wordAmo 0b11100 0b011 rd rs1 rs2 aq rl) = .ok (.amomaxuD rd rs1 rs2 aq rl) ∧
      AmoDouble (.amomaxuD rd rs1 rs2 aq rl) .maxu rd rs1 rs2 (fun o v => if v.toNat < o.toNat then o else v) s)

/-- O21. R102: the first child whose range holds the address takes it, relative to the child's start; where none does,
the node's own device answers at that address. -/
def Obligations.Routing : Prop :=
  (∀ (m : PhysMap) (pa : Word), m.route pa = m.children.route m.device pa) ∧
  ∀ (dev : Device) (ns : Nodes) (a : Word),
    (∀ before c after, children ns = before ++ c :: after → (∀ d ∈ before, ¬ holds d a) → holds c a →
      ns.route dev a = c.2.2.2.route c.2.2.1 (a - c.1)) ∧
    ((∀ d ∈ children ns, ¬ holds d a) → ns.route dev a = (dev, a))

/-- O22. R103: `PhysRead` by the device that answers; a device the spec leaves undescribed answers a free value (the
model's own, log entry 9), and the byte order is spec decision D1. That a width outside the four is fatal for every
address, one with no device included, is the model's own: the width is tested before routing (log entry 14, DESIGN
CHOICE). -/
def Obligations.PhysicalRead : Prop :=
  ∀ (pa : Word) (n : Nat) (tag : RmwTag) (s : State),
    (n ≠ 1 ∧ n ≠ 2 ∧ n ≠ 4 ∧ n ≠ 8 → physRead pa n tag s = .fatal .badWidth) ∧
    (n = 1 ∨ n = 2 ∨ n = 4 ∨ n = 8 →
      (∀ off, s.plat.physMap.route pa = (.absent, off) → physRead pa n tag s = .fatal (.noDevice pa n .read)) ∧
      (∀ base off, s.plat.physMap.route pa = (.memory base, off) →
        physRead pa n tag s = .done (Memory.readLE s.mem (base + off.toNat) n) s) ∧
      (∀ base off, s.plat.physMap.route pa = (.rom base, off) →
        physRead pa n tag s = .done (Memory.readLE s.rom (base + off.toNat) n) s) ∧
      (∀ h off, s.plat.physMap.route pa = (.other h, off) →
        physRead pa n tag s =
          .done (answer ⟨.other h, .read, off, n, 0, tag⟩ s) (touched ⟨.other h, .read, off, n, 0, tag⟩ s)))

/-- O23. R104: `PhysWrite` answers the previous n-byte value; a memory device then holds the written value, or `f(old, v)`
for an operation tag (R109). What a device that is not memory does is the model's own (log entry 9), and so is that a
width outside the four is fatal for every address, one with no device included: the width is tested before routing (log
entry 14, DESIGN CHOICE). -/
def Obligations.PhysicalWrite : Prop :=
  ∀ (pa : Word) (n : Nat) (v : Word) (tag : RmwTag) (s : State),
    (n ≠ 1 ∧ n ≠ 2 ∧ n ≠ 4 ∧ n ≠ 8 → physWrite pa n v tag s = .fatal .badWidth) ∧
    (n = 1 ∨ n = 2 ∨ n = 4 ∨ n = 8 →
      (∀ off, s.plat.physMap.route pa = (.absent, off) → physWrite pa n v tag s = .fatal (.noDevice pa n .write)) ∧
      (∀ base off, s.plat.physMap.route pa = (.memory base, off) →
        ∃ m : Memory, physWrite pa n v tag s = .done (Memory.readLE s.mem (base + off.toNat) n) { s with mem := m } ∧
          (Memory.wf s.mem = true → Memory.wf m = true ∧
            (∀ j, j < n → m.read (base + off.toNat + j) =
              (if tag = .none ∨ tag = .sc then v
                else rmwApply tag n (Memory.readLE s.mem (base + off.toNat) n) v).extractLsb' (8 * j) 8) ∧
            ∀ k, k < base + off.toNat ∨ base + off.toNat + n ≤ k → m.read k = Memory.read s.mem k)) ∧
      (∀ base off, s.plat.physMap.route pa = (.rom base, off) →
        physWrite pa n v tag s = .done (answer ⟨.rom base, .write, off, n, zextBytes n v, tag⟩ s)
          (touched ⟨.rom base, .write, off, n, zextBytes n v, tag⟩ s)) ∧
      (∀ h off, s.plat.physMap.route pa = (.other h, off) →
        physWrite pa n v tag s = .done (answer ⟨.other h, .write, off, n, zextBytes n v, tag⟩ s)
          (touched ⟨.other h, .write, off, n, zextBytes n v, tag⟩ s)))

/-- O24. Byte order (R110, spec decision D1, log entry 15): the byte at the lowest address is the least significant, for
every width, read and stored. -/
def Obligations.LittleEndian : Prop :=
  ∀ (m : Memory) (k : Nat) (v : Word),
    m.readLE k 1 = (m.read k).setWidth 64 ∧
    m.readLE k 2 = (m.read (k + 1) ++ m.read k : BitVec 16).setWidth 64 ∧
    m.readLE k 4 = (m.read (k + 3) ++ m.read (k + 2) ++ m.read (k + 1) ++ m.read k : BitVec 32).setWidth 64 ∧
    m.readLE k 8 = m.read (k + 7) ++ m.read (k + 6) ++ m.read (k + 5) ++ m.read (k + 4) ++ m.read (k + 3) ++
      m.read (k + 2) ++ m.read (k + 1) ++ m.read k ∧
    (Memory.wf m = true → ∀ n, n ≤ 8 → ∀ j, j < n → (m.writeLE k n v).read (k + j) = v.extractLsb' (8 * j) 8)

/-! ## Sv39 -/

/-- O25. Translation is off in Machine mode and with `satp.MODE` = 0; `mstatus` (MPRV, MPP, SUM, MXR) has no part in it
(R120; spec decision D14, log entry 18). -/
def Obligations.TranslationOff : Prop :=
  ∀ (acc : AccessType) (va : Word) (s : State),
    (s.priv = .machine ∨ s.csr.satp.extractLsb' 60 4 = 0 → translateVa acc va s = .done va s) ∧
    ∀ (w pa : Word) (u : State), translateVa acc va s = .done pa u →
      translateVa acc va { s with csr := { s.csr with mstatus := w } } =
        .done pa { u with csr := { u.csr with mstatus := w } }

/-- O26. R121 to R128: the walk, level by level from 2 down to 0: where the entry is read, which entries are invalid, which
are leaves, what a leaf at each level gives, that it ends below level 0, and that a fatal read of an entry is fatal at
every level. That every MODE but 0 walks, the layout of an entry, the composition of a superpage's address, that bits
63:39 are ignored, and that an entry with no device is fatal are spec decisions D12, D13, D10, D11 and D39 (log entry
18). -/
def Obligations.PageTableWalk : Prop :=
  ∀ (acc : AccessType) (va base : Word) (s : State),
    let bad (pte : Word) : Prop := pte.getLsbD 0 = false ∨ (pte.getLsbD 2 = true ∧ pte.getLsbD 1 = false)
    let leaf (pte : Word) : Prop := pte.getLsbD 1 = true ∨ pte.getLsbD 3 = true
    let next (pte : Word) : Word := (pte.extractLsb' 10 44).setWidth 64 * 4096
    (s.priv ≠ .machine → s.csr.satp.extractLsb' 60 4 ≠ 0 →
      translateVa acc va s =
        (walk va 3 ((s.csr.satp.extractLsb' 0 44).setWidth 64 * 4096) s).bind fun r u =>
          match r with
          | some pa => .done pa u
          | none => .raise acc.pageFault va u) ∧
    (∀ pte u, physRead (base + (va.extractLsb' 30 9).setWidth 64 * 8) 8 .none s = .done pte u →
      (bad pte → walk va 3 base s = .done none u) ∧
      (¬ bad pte → leaf pte →
        walk va 3 base s = .done (some ((pte.extractLsb' 28 26 ++ va.extractLsb' 0 30 : BitVec 56).setWidth 64)) u) ∧
      (¬ bad pte → ¬ leaf pte → walk va 3 base s = walk va 2 (next pte) u)) ∧
    (∀ pte u, physRead (base + (va.extractLsb' 21 9).setWidth 64 * 8) 8 .none s = .done pte u →
      (bad pte → walk va 2 base s = .done none u) ∧
      (¬ bad pte → leaf pte →
        walk va 2 base s = .done (some ((pte.extractLsb' 19 35 ++ va.extractLsb' 0 21 : BitVec 56).setWidth 64)) u) ∧
      (¬ bad pte → ¬ leaf pte → walk va 2 base s = walk va 1 (next pte) u)) ∧
    (∀ pte u, physRead (base + (va.extractLsb' 12 9).setWidth 64 * 8) 8 .none s = .done pte u →
      (bad pte → walk va 1 base s = .done none u) ∧
      (¬ bad pte → leaf pte →
        walk va 1 base s = .done (some ((pte.extractLsb' 10 44 ++ va.extractLsb' 0 12 : BitVec 56).setWidth 64)) u) ∧
      (¬ bad pte → ¬ leaf pte → walk va 1 base s = .done none u)) ∧
    (∀ r, physRead (base + (va.extractLsb' 30 9).setWidth 64 * 8) 8 .none s = .fatal r → walk va 3 base s = .fatal r) ∧
    (∀ r, physRead (base + (va.extractLsb' 21 9).setWidth 64 * 8) 8 .none s = .fatal r → walk va 2 base s = .fatal r) ∧
    (∀ r, physRead (base + (va.extractLsb' 12 9).setWidth 64 * 8) 8 .none s = .fatal r → walk va 1 base s = .fatal r)

/-- O27. Where the map holds no device the spec leaves undescribed, a translation leaves the whole state as it was, and
its answer depends on nothing but `satp`, `priv`, memory and the map (R131): registers, the other CSRs and the
reservation have no part in it. That the access type has none is R130, spec decision D9 (log entry 18, unsafe). -/
def Obligations.TranslationDependsOn : Prop :=
  ∀ (acc acc' : AccessType) (va pa : Word) (s s' u : State),
    s.plat.physMap.described = true → s'.csr.satp = s.csr.satp → s'.priv = s.priv → s'.mem = s.mem → s'.rom = s.rom →
    s'.plat.physMap = s.plat.physMap → translateVa acc va s = .done pa u →
      u = s ∧ translateVa acc' va s' = .done pa s'

/-! ## CSRs -/

/-- O28. The class of every CSR number (the table of R50, R66 to R69, R70; the numbers and the set are spec decision D17,
log entry 20). -/
def Obligations.CsrClasses : Prop :=
  ∀ (fatalSet : List CsrNum) (a : CsrNum),
    ((a = 1 ∨ a = 2 ∨ a = 3) → csrClass fatalSet a = .refused) ∧
    (¬ (a = 1 ∨ a = 2 ∨ a = 3) → a ∈ fatalSet → csrClass fatalSet a = .fatal) ∧
    (¬ (a = 1 ∨ a = 2 ∨ a = 3) → a ∉ fatalSet →
      (∀ n, (a, n) ∈ storedTable → csrClass fatalSet a = .stored n) ∧
      (∀ c, (a, c) ∈ computedTable → csrClass fatalSet a = .computed c) ∧
      (unsupportedNumber a → csrClass fatalSet a = .unsupported) ∧
      ((∀ n, (a, n) ∉ storedTable) → (∀ c, (a, c) ∉ computedTable) → ¬ unsupportedNumber a →
        csrClass fatalSet a = .unrecognized))

/-- O29. R70: `CsrRead` tests the class first, the privilege level next, and reading changes nothing but the count of
draws of a counter, whose value is a free value (the model's own, log entry 8, DESIGN CHOICE). The privilege test is spec
decision D18 (log entry 20) and the trap value 0 decision D28 (log entry 21). -/
def Obligations.CsrReadRule : Prop :=
  ∀ (a : CsrNum) (s : State),
    (csrClass s.plat.csrFatalSet a = .refused → csrRead a s = .refuse .floatingPoint) ∧
    (csrClass s.plat.csrFatalSet a = .fatal → csrRead a s = .fatal (.csrPanic a)) ∧
    (csrClass s.plat.csrFatalSet a = .unsupported ∨ csrClass s.plat.csrFatalSet a = .unrecognized →
      csrRead a s = .raise .illegalInstruction 0 s) ∧
    (∀ c, csrClass s.plat.csrFatalSet a = .computed c → csrRead a s =
      if s.priv.code.toNat < (a.extractLsb' 8 2).toNat then .raise .illegalInstruction 0 s
      else .done (Config.counterRead c s.draws) { s with draws := s.draws + 1 }) ∧
    (∀ n, csrClass s.plat.csrFatalSet a = .stored n → csrRead a s =
      if s.priv.code.toNat < (a.extractLsb' 8 2).toNat then .raise .illegalInstruction 0 s
      else .done (s.csr.get n) s)

/-- O30. R71: `CsrUpdate` reads first and returns the old value; a read that does not give a value ends the update with
nothing written; the read-only test comes next and only for an update that writes; WRITE, SET and CLEAR replace all 64
bits of the slot; an operation outside the three is fatal. That it is fatal whatever the read would give is the model's
own: the operation is tested before the read (log entry 14, DESIGN CHOICE). The read-only test is spec decision D18, the
trap value D28, and that every stored CSR is a slot of its own D16 (log entries 20, 21). -/
def Obligations.CsrUpdateRule : Prop :=
  ∀ (a : CsrNum) (data : Word) (wr : Bool) (s : State),
    (∀ code, csrUpdate a data (.other code) wr s = .fatal .badCsrOp) ∧
    ∀ op, (op = .write ∨ op = .set ∨ op = .clear) →
      (∀ e tval u, csrRead a s = .raise e tval u → csrUpdate a data op wr s = .raise e tval u) ∧
      (∀ r, csrRead a s = .fatal r → csrUpdate a data op wr s = .fatal r) ∧
      (∀ r, csrRead a s = .refuse r → csrUpdate a data op wr s = .refuse r) ∧
      (∀ old u, csrRead a s = .done old u →
        (wr = false → csrUpdate a data op wr s = .done old u) ∧
        (wr = true → a.extractLsb' 10 2 = 3 → csrUpdate a data op wr s = .raise .illegalInstruction 0 u) ∧
        (wr = true → a.extractLsb' 10 2 ≠ 3 → ∃ n, (a, n) ∈ storedTable ∧ old = s.csr.get n ∧
          ∃ t, csrUpdate a data op wr s = .done old t ∧
            t = { s with csr := t.csr } ∧ (∀ m, m ≠ n → t.csr.get m = s.csr.get m) ∧
            (op = .write → t.csr.get n = data) ∧ (op = .set → t.csr.get n = old ||| data) ∧
            (op = .clear → t.csr.get n = old &&& ~~~data)))

/-- O31. R393 to R398: every way the six CSR instructions end, with the write flag of R391 (spec decision D33), the
privilege and read-only tests (D18) and trap value 0 (D28). The clauses for a computed counter (a free value, one more
draw, drawn even when the write then traps) are the model's own (log entry 8, DESIGN CHOICE). -/
def Obligations.CsrInstructions : Prop :=
  ∀ (s : State) (rd rs1 : RegIdx) (u : BitVec 5) (a : CsrNum),
    let t := s.getX rs1
    let z : Word := u.setWidth 64
    (decode (wordI 0b001 0b1110011 rd rs1 a) = .ok (.csrrw rd rs1 a) ∧
      CsrRule (.csrrw rd rs1 a) a true (fun _ => t) rd s) ∧
    (decode (wordI 0b010 0b1110011 rd rs1 a) = .ok (.csrrs rd rs1 a) ∧
      CsrRule (.csrrs rd rs1 a) a (decide (rs1 ≠ 0)) (fun old => old ||| t) rd s) ∧
    (decode (wordI 0b011 0b1110011 rd rs1 a) = .ok (.csrrc rd rs1 a) ∧
      CsrRule (.csrrc rd rs1 a) a (decide (rs1 ≠ 0)) (fun old => old &&& ~~~t) rd s) ∧
    (decode (wordI 0b101 0b1110011 rd u a) = .ok (.csrrwi rd u a) ∧
      CsrRule (.csrrwi rd u a) a true (fun _ => z) rd s) ∧
    (decode (wordI 0b110 0b1110011 rd u a) = .ok (.csrrsi rd u a) ∧
      CsrRule (.csrrsi rd u a) a (decide (u ≠ 0)) (fun old => old ||| z) rd s) ∧
    (decode (wordI 0b111 0b1110011 rd u a) = .ok (.csrrci rd u a) ∧
      CsrRule (.csrrci rd u a) a (decide (u ≠ 0)) (fun old => old &&& ~~~z) rd s)

/-! ## System instructions -/

/-- O32. ECALL, EBREAK and C.EBREAK take their exception and nothing else: cause `8 + priv` or 3, trap value 0 (spec
decision D28), saved pc their own address (R410, R411, R480, R505). -/
def Obligations.CallAndBreakpoint : Prop :=
  ∀ s : State,
    Does (.full 0x00000073) .ecall s (trapEnter s.pc (8 + s.priv.code.setWidth 64) 0 s) ∧
    Does (.full 0x00100073) .ebreak s (trapEnter s.pc 3 0 s) ∧
    Does (.half 0x9002) .cEbreak s (trapEnter s.pc 3 0 s)

/-- O33. SRET (R413): Illegal instruction in User mode (spec decision D22); otherwise the level of SPP, SIE taken from
SPIE, the pc from `sepc`, and every other bit and register as it was (D21; log entry 21). -/
def Obligations.SupervisorReturn : Prop :=
  ∀ s : State, decode (.full 0x10200073) = .ok .sret ∧
    (s.priv = .user → exec .sret s = .next (trapEnter s.pc 2 0 s)) ∧
    (s.priv ≠ .user → exec .sret s = .next
      { s with
        csr := { s.csr with sstatus := (s.csr.sstatus &&& ~~~(2 : Word)) ||| ((s.csr.sstatus >>> 4) &&& 2) }
        priv := if s.csr.sstatus.getLsbD 8 then .supervisor else .user
        pc := s.csr.sepc })

/-- O34. MRET (R414): Illegal instruction below Machine mode (D22); refused for MPP = 2 (D36); otherwise the level of
MPP, MIE taken from MPIE, the pc from `mepc`, and every other bit and register as it was (D21; log entry 21). -/
def Obligations.MachineReturn : Prop :=
  ∀ s : State, decode (.full 0x30200073) = .ok .mret ∧
    (s.priv ≠ .machine → exec .mret s = .next (trapEnter s.pc 2 0 s)) ∧
    (s.priv = .machine → s.csr.mstatus.extractLsb' 11 2 = 2 → exec .mret s = .refused .badPrivilegeValue) ∧
    (s.priv = .machine → s.csr.mstatus.extractLsb' 11 2 ≠ 2 → ∃ p : Priv,
      p.code = s.csr.mstatus.extractLsb' 11 2 ∧
      exec .mret s = .next
        { s with
          csr := { s.csr with mstatus := (s.csr.mstatus &&& ~~~(8 : Word)) ||| ((s.csr.mstatus >>> 4) &&& 8) }
          priv := p
          pc := s.csr.mepc })

/-- O35. R415, R416, R418: WFI, SFENCE.VMA and FENCE.I only go on, in every mode. -/
def Obligations.NoOperationForms : Prop :=
  ∀ (s : State) (rs1 rs2 rd : RegIdx) (imm : BitVec 12),
    Does (.full 0x10500073) .wfi s (s.setPc (s.pc + 4)) ∧
    Does (wordR 0b0001001 0b000 0b1110011 0 rs1 rs2) (.sfenceVma rs1 rs2) s (s.setPc (s.pc + 4)) ∧
    Does (wordI 0b001 0b0001111 rd rs1 imm) (.fenceI imm rs1 rd) s (s.setPc (s.pc + 4))

/-- O36. FENCE only goes on, whatever its fields (R417; FENCE.TSO and PAUSE among them by spec decision D34). -/
def Obligations.FenceForm : Prop :=
  ∀ (s : State) (fm pred succ : BitVec 4) (rs1 rd : RegIdx),
    Does (.full (fm ++ pred ++ succ ++ rs1 ++ 0b000#3 ++ rd ++ 0b0001111#7)) (.fence fm pred succ rs1 rd) s
      (s.setPc (s.pc + 4))

/-- O37. R412: URET ends the run, at every privilege level. -/
def Obligations.UretStops : Prop :=
  ∀ s : State, decode (.full 0x00200073) = .ok .uret ∧ exec .uret s = .fault (.badTrapExit .uret)

/-- O38. Every floating-point encoding is refused (R206, R432, R436, R471, R474: spec decision D4, log entry 24). -/
def Obligations.FloatingPointRefused : Prop :=
  ∀ (s : State) (b : BitVec 25) (h : BitVec 1) (c : BitVec 10),
    let r (w : InstBits) (i : Instr) : Prop := decode w = .ok i ∧ exec i s = .refused .floatingPoint
    r (.full (b ++ 0b0000111#7)) (.loadFp b) ∧ r (.full (b ++ 0b0100111#7)) (.storeFp b) ∧
    r (.full (b ++ 0b1000011#7)) (.fmadd b) ∧ r (.full (b ++ 0b1000111#7)) (.fmsub b) ∧
    r (.full (b ++ 0b1001011#7)) (.fnmsub b) ∧ r (.full (b ++ 0b1001111#7)) (.fnmadd b) ∧
    r (.full (b ++ 0b1010011#7)) (.opFp b) ∧
    r (.half (0b001#3 ++ (h ++ c) ++ 0b00#2)) (.cFld (h ++ c)) ∧
    r (.half (0b101#3 ++ (h ++ c) ++ 0b00#2)) (.cFsd (h ++ c)) ∧
    r (.half (0b001#3 ++ (h ++ c) ++ 0b10#2)) (.cFldsp (h ++ c)) ∧
    r (.half (0b101#3 ++ (h ++ c) ++ 0b10#2)) (.cFsdsp (h ++ c))

/-- O39. R435, R462: the unassigned compressed spaces are unknown encodings, with the parcel's bits. -/
def Obligations.UnassignedCompressed : Prop :=
  ∀ (s : State) (b : BitVec 11) (rd rs2 : CRegIdx) (low : BitVec 1),
    decode (.half (0b100#3 ++ b ++ 0b00#2)) = .ok (.cReservedQ0 b) ∧
    exec (.cReservedQ0 b) s = .fault (.unknownEncoding ((0b100#3 ++ b ++ 0b00#2 : BitVec 16).setWidth 32)) ∧
    decode (.half (0b100111#6 ++ rd ++ 0b1#1 ++ low ++ rs2 ++ 0b01#2)) = .ok (.cReservedQ1 rd low rs2) ∧
    exec (.cReservedQ1 rd low rs2) s =
      .fault (.unknownEncoding ((0b100111#6 ++ rd ++ 0b1#1 ++ low ++ rs2 ++ 0b01#2 : BitVec 16).setWidth 32))

/-- O40. The all-zero parcel is an unknown encoding, not an Illegal instruction trap (R439; spec decision D3, log entry
24). -/
def Obligations.AllZeroParcel : Prop :=
  ∀ s : State, decode (.half 0) = .ok .cIllegal ∧ exec .cIllegal s = .fault (.unknownEncoding 0)

/-! ## Compressed instructions -/

/-- O41. R431, R440 to R443, R451, R452: the compressed immediate forms, each with its gather and its reserved operand
value. That a reserved operand value is refused is spec decision D3 (log entry 24). -/
def Obligations.CompressedImmediates : Prop :=
  ∀ (s : State) (rd : CRegIdx) (r : RegIdx) (i8 : BitVec 8) (i6 : BitVec 6),
    let spn (d : CRegIdx) (i : BitVec 8) : InstBits := .half (0b000#3 ++ i.extractLsb' 2 2 ++ i.extractLsb' 4 4 ++
      i.extractLsb' 0 1 ++ i.extractLsb' 1 1 ++ d ++ 0b00#2)
    let asp (i : BitVec 6) : InstBits := .half (0b011#3 ++ i.extractLsb' 5 1 ++ 2#5 ++ i.extractLsb' 0 1 ++
      i.extractLsb' 2 1 ++ i.extractLsb' 3 2 ++ i.extractLsb' 1 1 ++ 0b01#2)
    let z : Word := i6.signExtend 64
    (i8 ≠ 0 → Does (spn rd i8) (.cAddi4spn rd i8) s (put s (creg rd) (s.getX 2 + (i8 ++ 0#2 : BitVec 10).setWidth 64) 2)) ∧
    (rd ≠ 0 → decode (spn rd 0) = .error .reservedCompressed) ∧
    Does (parcelCI 0b000 0b01 0 i6) (.cNop i6) s (s.setPc (s.pc + 2)) ∧
    (r ≠ 0 → Does (parcelCI 0b000 0b01 r i6) (.cAddi r i6) s (put s r (s.getX r + z) 2)) ∧
    (r ≠ 0 → Does (parcelCI 0b001 0b01 r i6) (.cAddiw r i6) s (put s r ((lo (s.getX r + z)).signExtend 64) 2)) ∧
    decode (parcelCI 0b001 0b01 0 i6) = .error .reservedCompressed ∧
    Does (parcelCI 0b010 0b01 r i6) (.cLi r i6) s (put s r z 2) ∧
    (i6 ≠ 0 → Does (asp i6) (.cAddi16sp i6) s (put s 2 (s.getX 2 + (i6 ++ 0#4 : BitVec 10).signExtend 64) 2)) ∧
    decode (asp 0) = .error .reservedCompressed ∧
    (r ≠ 2 → i6 ≠ 0 → Does (parcelCI 0b011 0b01 r i6) (.cLui r i6) s
      (put s r ((i6 ++ 0#12 : BitVec 18).signExtend 64) 2)) ∧
    (r ≠ 2 → decode (parcelCI 0b011 0b01 r 0) = .error .reservedCompressed)

/-- O42. R453 to R461, R470, R479, R481: the compressed shift and register forms. -/
def Obligations.CompressedRegisterForms : Prop :=
  ∀ (s : State) (d e : CRegIdx) (r r2 : RegIdx) (i6 : BitVec 6),
    let a := s.getX (creg d)
    let b := s.getX (creg e)
    Does (parcelCB 0b00 d i6) (.cSrli d i6) s (put s (creg d) (a >>> i6.toNat) 2) ∧
    Does (parcelCB 0b01 d i6) (.cSrai d i6) s (put s (creg d) (a.sshiftRight i6.toNat) 2) ∧
    Does (parcelCB 0b10 d i6) (.cAndi d i6) s (put s (creg d) (a &&& i6.signExtend 64) 2) ∧
    Does (parcelCA 0b100011 0b00 d e) (.cSub d e) s (put s (creg d) (a - b) 2) ∧
    Does (parcelCA 0b100011 0b01 d e) (.cXor d e) s (put s (creg d) (a ^^^ b) 2) ∧
    Does (parcelCA 0b100011 0b10 d e) (.cOr d e) s (put s (creg d) (a ||| b) 2) ∧
    Does (parcelCA 0b100011 0b11 d e) (.cAnd d e) s (put s (creg d) (a &&& b) 2) ∧
    Does (parcelCA 0b100111 0b00 d e) (.cSubw d e) s (put s (creg d) ((lo (a - b)).signExtend 64) 2) ∧
    Does (parcelCA 0b100111 0b01 d e) (.cAddw d e) s (put s (creg d) ((lo (a + b)).signExtend 64) 2) ∧
    Does (parcelCI 0b000 0b10 r i6) (.cSlli r i6) s (put s r (s.getX r <<< i6.toNat) 2) ∧
    (r2 ≠ 0 → Does (parcelCR 0b1000 r r2) (.cMv r r2) s (put s r (s.getX r2) 2)) ∧
    (r2 ≠ 0 → Does (parcelCR 0b1001 r r2) (.cAdd r r2) s (put s r (s.getX r + s.getX r2) 2))

/-- O43. R463 to R465, R477, R478: the compressed jumps and branches; C.JALR links `pc + 2` in x1, C.J and C.JR link
nothing. That C.JR of x0 is refused is spec decision D3 (log entry 24); that the target of C.JR and C.JALR keeps bit 0 is
decision D7 (log entry 19). -/
def Obligations.CompressedTransfers : Prop :=
  ∀ (s : State) (c : CRegIdx) (r : RegIdx) (o11 : BitVec 11) (o8 : BitVec 8),
    let cj : InstBits := .half (0b101#3 ++ o11.extractLsb' 10 1 ++ o11.extractLsb' 3 1 ++ o11.extractLsb' 7 2 ++
      o11.extractLsb' 9 1 ++ o11.extractLsb' 5 1 ++ o11.extractLsb' 6 1 ++ o11.extractLsb' 0 3 ++
      o11.extractLsb' 4 1 ++ 0b01#2)
    let cb (f3 : BitVec 3) : InstBits := .half (f3 ++ o8.extractLsb' 7 1 ++ o8.extractLsb' 2 2 ++ c ++
      o8.extractLsb' 5 2 ++ o8.extractLsb' 0 2 ++ o8.extractLsb' 4 1 ++ 0b01#2)
    let t := s.pc + (o8 ++ 0#1 : BitVec 9).signExtend 64
    Does cj (.cJ o11) s (s.setPc (s.pc + (o11 ++ 0#1 : BitVec 12).signExtend 64)) ∧
    Does (cb 0b110) (.cBeqz c o8) s (s.setPc (if s.getX (creg c) = 0 then t else s.pc + 2)) ∧
    Does (cb 0b111) (.cBnez c o8) s (s.setPc (if s.getX (creg c) = 0 then s.pc + 2 else t)) ∧
    (r ≠ 0 → Does (parcelCR 0b1001 r 0) (.cJalr r) s ((s.setX 1 (s.pc + 2)).setPc (s.getX r))) ∧
    (r ≠ 0 → Does (parcelCR 0b1000 r 0) (.cJr r) s (s.setPc (s.getX r))) ∧
    decode (parcelCR 0b1000 0 0) = .error .reservedCompressed

/-- O44. R433, R434, R472, R473: the compressed loads, each with its gather, ending as O15 says; the sp forms are
reserved for rd = x0 (spec decision D3, log entry 24). -/
def Obligations.CompressedLoads : Prop :=
  ∀ (s : State) (d b : CRegIdx) (r : RegIdx) (i5 : BitVec 5) (i6 : BitVec 6),
    let base := s.getX (creg b)
    let lwsp (r : RegIdx) : InstBits := .half (0b010#3 ++ i6.extractLsb' 3 1 ++ r ++ i6.extractLsb' 0 3 ++
      i6.extractLsb' 4 2 ++ 0b10#2)
    let ldsp (r : RegIdx) : InstBits := .half (0b011#3 ++ i6.extractLsb' 2 1 ++ r ++ i6.extractLsb' 0 2 ++
      i6.extractLsb' 3 3 ++ 0b10#2)
    (decode (.half (0b010#3 ++ i5.extractLsb' 1 3 ++ b ++ i5.extractLsb' 0 1 ++ i5.extractLsb' 4 1 ++ d ++ 0b00#2)) =
        .ok (.cLw d b i5) ∧
      LoadRule (.cLw d b i5) 4 (base + (i5 ++ 0#2 : BitVec 7).setWidth 64) (creg d)
        (fun v => (lo v).signExtend 64) 2 s) ∧
    (decode (.half (0b011#3 ++ i5.extractLsb' 0 3 ++ b ++ i5.extractLsb' 3 2 ++ d ++ 0b00#2)) = .ok (.cLd d b i5) ∧
      LoadRule (.cLd d b i5) 8 (base + (i5 ++ 0#3 : BitVec 8).setWidth 64) (creg d) id 2 s) ∧
    (r ≠ 0 → decode (lwsp r) = .ok (.cLwsp r i6)) ∧ decode (lwsp 0) = .error .reservedCompressed ∧
    LoadRule (.cLwsp r i6) 4 (s.getX 2 + (i6 ++ 0#2 : BitVec 8).setWidth 64) r (fun v => (lo v).signExtend 64) 2 s ∧
    (r ≠ 0 → decode (ldsp r) = .ok (.cLdsp r i6)) ∧ decode (ldsp 0) = .error .reservedCompressed ∧
    LoadRule (.cLdsp r i6) 8 (s.getX 2 + (i6 ++ 0#3 : BitVec 9).setWidth 64) r id 2 s

/-- O45. R437, R438, R475, R476: the compressed stores, each with its gather, ending as O16 says. -/
def Obligations.CompressedStores : Prop :=
  ∀ (s : State) (b c : CRegIdx) (r : RegIdx) (i5 : BitVec 5) (i6 : BitVec 6),
    let base := s.getX (creg b)
    (decode (.half (0b110#3 ++ i5.extractLsb' 1 3 ++ b ++ i5.extractLsb' 0 1 ++ i5.extractLsb' 4 1 ++ c ++ 0b00#2)) =
        .ok (.cSw b c i5) ∧
      StoreRule (.cSw b c i5) 4 (base + (i5 ++ 0#2 : BitVec 7).setWidth 64) (s.getX (creg c)) 2 s) ∧
    (decode (.half (0b111#3 ++ i5.extractLsb' 0 3 ++ b ++ i5.extractLsb' 3 2 ++ c ++ 0b00#2)) = .ok (.cSd b c i5) ∧
      StoreRule (.cSd b c i5) 8 (base + (i5 ++ 0#3 : BitVec 8).setWidth 64) (s.getX (creg c)) 2 s) ∧
    (decode (.half (0b110#3 ++ i6.extractLsb' 0 4 ++ i6.extractLsb' 4 2 ++ r ++ 0b10#2)) = .ok (.cSwsp r i6) ∧
      StoreRule (.cSwsp r i6) 4 (s.getX 2 + (i6 ++ 0#2 : BitVec 8).setWidth 64) (s.getX r) 2 s) ∧
    (decode (.half (0b111#3 ++ i6.extractLsb' 0 3 ++ i6.extractLsb' 3 3 ++ r ++ 0b10#2)) = .ok (.cSdsp r i6) ∧
      StoreRule (.cSdsp r i6) 8 (s.getX 2 + (i6 ++ 0#3 : BitVec 9).setWidth 64) (s.getX r) 2 s)

/-! ## Traps and interrupts -/

/-- O46. R530: what trap entry saves, changes and leaves alone, in each of its two halves. -/
def Obligations.TrapEntry : Prop :=
  ∀ (epc cause tval : Word) (s : State),
    let d : Bool := if cause.getLsbD 63 then s.csr.mideleg.getLsbD (cause.toNat % 64)
      else s.csr.medeleg.getLsbD (cause.toNat % 64)
    (d = true ∧ s.priv ≠ .machine → trapEnter epc cause tval s =
      { s with
        csr := { s.csr with
          sstatus := (s.csr.sstatus &&& ~~~(0x122 : Word)) ||| ((s.csr.sstatus <<< 4) &&& 0x20) |||
            (if s.priv = .supervisor then 0x100 else 0)
          scause := cause
          stval := tval
          sepc := epc }
        priv := .supervisor
        pc := s.csr.stvec }) ∧
    (¬ (d = true ∧ s.priv ≠ .machine) → trapEnter epc cause tval s =
      { s with
        csr := { s.csr with
          mstatus := (s.csr.mstatus &&& ~~~(0x1888 : Word)) ||| ((s.csr.mstatus <<< 4) &&& 0x80) |||
            (s.priv.code.setWidth 64 <<< 11)
          mcause := cause
          mtval := tval
          mepc := epc }
        priv := .machine
        pc := s.csr.mtvec })

/-- O47. Entry and exit symmetry (R542; what a return keeps is spec decision D21): after a trap, the return instruction
of the mode it landed in gives back the privilege level, the pc and the interrupt enable of before. -/
def Obligations.TrapReturnSymmetry : Prop :=
  ∀ (epc cause tval : Word) (s : State),
    (s.trapsToSupervisor cause = true → ∃ u, exec .sret (trapEnter epc cause tval s) = .next u ∧
      u.priv = s.priv ∧ u.pc = epc ∧ u.csr.sstatus.getLsbD 1 = s.csr.sstatus.getLsbD 1 ∧ u.regs = s.regs ∧
      u.mem = s.mem) ∧
    (s.trapsToSupervisor cause = false → ∃ u, exec .mret (trapEnter epc cause tval s) = .next u ∧
      u.priv = s.priv ∧ u.pc = epc ∧ u.csr.mstatus.getLsbD 3 = s.csr.mstatus.getLsbD 3 ∧ u.regs = s.regs ∧
      u.mem = s.mem)

/-- O48. The interrupt check (R520 to R522; spec decisions D24 to D26, log entry 22): both inputs are sampled once, from
the queue of inputs or as free values when it is empty (log entry 7); external first, enabled as the target mode says,
the pending bit of the target set, then one trap entry with value 0. -/
def Obligations.InterruptCheck : Prop :=
  ∀ s : State,
    (∀ i rest, s.irqInputs = i :: rest → IrqCheck i { s with irqInputs := rest } (handleInterrupt s)) ∧
    (s.irqInputs = [] → IrqCheck ⟨Config.pollExternal s.draws, Config.pollTimer s.draws⟩
      { s with draws := s.draws + 1 } (handleInterrupt s))

/-! ## The cycle -/

/-- O49. A step runs the decoded instruction (R503, R504; spec decisions D6, D35, log entries 19, 22): after the interrupt
check, step is exec of the instruction that the fetched bits decode to; where translation is off and the bytes at the pc
lie in memory devices, those bits are the two or four bytes at the pc, little-endian by spec decision D1 (R110, log entry
15). -/
def Obligations.StepRunsDecoded : Prop :=
  ∀ (s : State) (i : Instr),
    let u := handleInterrupt s
    s.halted = .running →
    (∀ bits v, fetch u = .done bits v → decode bits = .ok i → step s = exec i v) ∧
    (u.pc.getLsbD 0 = false → (u.priv = .machine ∨ u.csr.satp.extractLsb' 60 4 = 0) →
      ∀ b0 o0, u.plat.physMap.route u.pc = (.memory b0, o0) →
        let p0 : BitVec 16 := Memory.read u.mem (b0 + o0.toNat + 1) ++ Memory.read u.mem (b0 + o0.toNat)
        (p0.extractLsb' 0 2 ≠ 3 → decode (.half p0) = .ok i → step s = exec i u) ∧
        (p0.extractLsb' 0 2 = 3 → ∀ b1 o1, u.plat.physMap.route (u.pc + 2) = (.memory b1, o1) →
          let p1 : BitVec 16 := Memory.read u.mem (b1 + o1.toNat + 1) ++ Memory.read u.mem (b1 + o1.toNat)
          decode (.full (p1 ++ p0)) = .ok i → step s = exec i u))

/-- O50. How a fetch ends without an instruction (R140 to R142, R503 to R505; spec decisions D6, D7, log entry 19): an odd
pc is Instruction address misaligned (0) with the pc as trap value; a page fault of either parcel is Instruction page
fault (12) with the parcel's address as trap value and the pc as saved pc; a parcel that routes to no device, and a walk
that reads an entry where no device is, are fatal, of either parcel (R107; decision D39); an unknown encoding is fatal, a
reserved compressed form refused (D3). -/
def Obligations.FetchOutcomes : Prop :=
  ∀ s : State,
    let u := handleInterrupt s
    s.halted = .running →
    (u.pc.getLsbD 0 = true → step s = .next (trapEnter u.pc 0 u.pc u)) ∧
    (u.pc.getLsbD 0 = false → ∀ e tval v, translateVa .fetch u.pc u = .raise e tval v →
      step s = .next (trapEnter u.pc 12 u.pc v)) ∧
    (∀ p0 v, fetch16 u.pc u = .done p0 v → p0.extractLsb' 0 2 = 3 →
      ∀ e tval w, translateVa .fetch (u.pc + 2) v = .raise e tval w → step s = .next (trapEnter u.pc 12 (u.pc + 2) w)) ∧
    (u.pc.getLsbD 0 = false →
      (∀ r, translateVa .fetch u.pc u = .fatal r → step s = .fault r) ∧
      (∀ pa v off, translateVa .fetch u.pc u = .done pa v → v.plat.physMap.route pa = (.absent, off) →
        step s = .fault (.noDevice pa 2 .read))) ∧
    (∀ p0 v, fetch16 u.pc u = .done p0 v → p0.extractLsb' 0 2 = 3 →
      (∀ r, translateVa .fetch (u.pc + 2) v = .fatal r → step s = .fault r) ∧
      (∀ pa w off, translateVa .fetch (u.pc + 2) v = .done pa w → w.plat.physMap.route pa = (.absent, off) →
        step s = .fault (.noDevice pa 2 .read))) ∧
    (∀ r, fetch u = .fatal r → step s = .fault r) ∧
    (∀ bits v, fetch u = .done bits v →
      (∀ x, decode bits = .error (.unknownEncoding x) → step s = .fault (.unknownEncoding x)) ∧
      (decode bits = .error .reservedCompressed → step s = .refused .reservedCompressed))

/-- O51. A halted hart performs no cycle (R40; spec decision D2); a fatal outcome of a running hart sets the mark and makes
no other write in that cycle (R13), an interrupt entry of the cycle included (log entry 11, DEDUCED). Of the model's own
fields the cycle's sample of the inputs is consumed (log entry 7); that the RAM side effects of an undescribed device read
earlier in the cycle are dropped is the model's choice (log entry 30). -/
def Obligations.HaltedHart : Prop :=
  ∀ (s : State) (r : Fault),
    (s.halted = .fatal r → step s = .fault r ∧ settle s = s) ∧
    (s.halted = .running → step s = .fault r →
      settle s = { s with
        halted := .fatal r
        irqInputs := s.irqInputs.tail
        draws := if s.irqInputs = [] then s.draws + 1 else s.draws } ∧
      step (settle s) = .fault r) ∧
    s.hartReset.halted = .running

/-- O52. The state after reset (R80, R570; spec decision D5, log entries 1 to 3, 5, 28): all 4096 slots of the CSR array
are 0; reset touches neither memory nor the platform, and the content of memory that nothing has written is free, each
byte a value of its own (R572; log entry 4). -/
def Obligations.ResetState : Prop :=
  (∀ s : State, ∀ t, (t = s.hartReset ∨ (t = State.reset ∧ s = State.reset)) →
    t.pc = s.plat.resetPc ∧ t.priv = .machine ∧ (∀ i, t.getX i = 0) ∧ (∀ i : Fin 32, t.fregs[i] = 0) ∧
    (∀ n, t.csr.get n = 0) ∧ (∀ a, t.csr.slot a = 0) ∧ t.resv = none ∧ t.halted = .running ∧
    t.mem = s.mem ∧ t.rom = s.rom ∧ t.plat = s.plat ∧ t.irqInputs = s.irqInputs) ∧
  (∀ k, Memory.read State.reset.mem k = Config.initialByte k) ∧
  (∀ pa, State.reset.plat.physMap.route pa = (.memory 0, pa)) ∧
  State.reset.pc = 0 ∧ State.reset.plat.extIrqCode = 11 ∧ State.reset.plat.timerIrqCode = 7 ∧
  State.reset.plat.csrFatalSet = []

/-! ## What every instruction and every step keeps -/

/-- O53. The state after reset meets the invariant. -/
def Obligations.InvariantAtReset : Prop := State.Inv State.reset

/-- O54. Every step keeps the invariant: memory, ROM and the CSR array in canonical form, the hart running. -/
def Obligations.InvariantKept : Prop :=
  ∀ s t : State, s.Inv → step s = .next t → t.Inv

/-- O55. No step changes the floating-point registers (R36), the slots of the CSR array outside the table of R50 (log entry
13, DEDUCED), the platform parameters (R9; that they stand in State is log entry 6) or the halted mark, and each consumes
exactly one entry of the input queue (R520, log entry 7). That no step changes ROM contents is the model's own (log entry
9, DESIGN CHOICE, unsafe: R108 puts what a ROM does with a write outside the core). -/
def Obligations.FixedStateKept : Prop :=
  ∀ s t : State, step s = .next t → SameFixed s t ∧ t.irqInputs = s.irqInputs.tail

/-- O56. The integer registers' frame, for every instruction (R230, R505): nothing changes but the destination register,
and not that one either when the instruction traps: a next state is that of a trap entry with every register kept, or its
level and CSRs are those of an instruction that completes. -/
def Obligations.RegisterFrame : Prop :=
  ∀ (i : Instr) (s t : State), exec i s = .next t →
    (∀ r, dest i ≠ some r → t.getX r = s.getX r) ∧ t.getX 0 = 0 ∧
    ((t.regs = s.regs ∧ ∃ (e : Exc) (tval : Word) (u : State), u.csr = s.csr ∧ u.priv = s.priv ∧
        t = trapEnter s.pc e.cause tval u) ∨
      (t.priv = s.priv ∧ (t.csr = s.csr ∨
        ∃ a n v, csrOf i = some a ∧ (a, n) ∈ storedTable ∧ t.csr = s.csr.set n v)) ∨
      (t.regs = s.regs ∧ (i = .sret ∨ i = .mret)))

/-- O57. Memory's frame, where the map holds no device the spec leaves undescribed: every byte reads as before unless
the instruction is a store, an SC or an AMO; what one of these changes is said by O16, O18 to O20 and O45. -/
def Obligations.MemoryFrame : Prop :=
  ∀ (i : Instr) (s t : State), s.plat.physMap.described = true → exec i s = .next t →
    writesMemory i = false → t.mem = s.mem

/-- O58. The reservation's frame (R39, R351; spec decision D29, log entry 23): only LR sets it and only SC clears it. -/
def Obligations.ReservationFrame : Prop :=
  ∀ (i : Instr) (s t : State), exec i s = .next t →
    t.resv = s.resv ∨ (isLoadReserved i = true ∧ t.resv ≠ none) ∨ (isStoreConditional i = true ∧ t.resv = none)

/-- O59. The frame of the privilege level and the CSRs (R37, R392, R419, R502): an instruction that completes changes
neither, but for a CSR instruction, which can change the one CSR it names, and for SRET and MRET; every other change is a
trap entry with the instruction's own pc as saved pc. That a CSR write changes no other CSR is spec decision D16 (log
entry 20), and that SRET acts only above User mode and MRET only in Machine mode is decision D22 (log entry 21). -/
def Obligations.ControlStateFrame : Prop :=
  ∀ (i : Instr) (s t : State), exec i s = .next t →
    (t.priv = s.priv ∧ t.csr = s.csr) ∨
    (t.priv = s.priv ∧ ∃ a n v, csrOf i = some a ∧ (a, n) ∈ storedTable ∧ t.csr = s.csr.set n v) ∨
    (∃ (e : Exc) (tval : Word) (u : State), u.csr = s.csr ∧ u.priv = s.priv ∧ u.regs = s.regs ∧ u.resv = s.resv ∧
      t = trapEnter s.pc e.cause tval u) ∨
    (i = .sret ∧ s.priv ≠ .user ∧ t.regs = s.regs ∧ t.mem = s.mem) ∨
    (i = .mret ∧ s.priv = .machine ∧ t.regs = s.regs ∧ t.mem = s.mem)

/-- O60. What User mode cannot do (R72, R419, R501, R502; the privilege check is spec decision D18): an instruction run
in User mode leaves every CSR and the privilege level as they were, or it takes a trap. -/
def Obligations.UserModeConfined : Prop :=
  ∀ (i : Instr) (s t : State), s.priv = .user → exec i s = .next t →
    (t.priv = .user ∧ t.csr = s.csr) ∨
    (∃ (e : Exc) (tval : Word) (u : State), u.csr = s.csr ∧ u.priv = .user ∧ t = trapEnter s.pc e.cause tval u)
end

