-- ==== Sys2Proof/Laws/Decode.lean ====
section
/-! SUPPORT. The laws of the fields: cutting and joining a word, gathering what was placed and placing what was
gathered. The provers cite them instead of unfolding an encoding. -/

namespace Sys2Proof

/-! ### Cutting and joining -/

theorem Fields32.split_join (f : Fields32) : Fields32.split f.join = f := by
  obtain ⟨a, b, c, d, e, g⟩ := f
  simp (disch := omega) only [Fields32.split, Fields32.join, BitVec.extractLsb'_append_eq_of_le,
    BitVec.extractLsb'_append_eq_of_add_le, Nat.reduceSub, BitVec.extractLsb'_eq_self]

theorem Fields32.join_split (w : BitVec 32) : (Fields32.split w).join = w := by
  apply BitVec.eq_of_getLsbD_eq
  intro i hi
  simp only [Fields32.split, Fields32.join, BitVec.getLsbD_append, BitVec.getLsbD_extractLsb']
  interval_cases i <;> rfl

theorem Fields16.split_join (f : Fields16) : Fields16.split f.join = f := by
  obtain ⟨a, b, c, d, e, g, h⟩ := f
  simp (disch := omega) only [Fields16.split, Fields16.join, BitVec.extractLsb'_append_eq_of_le,
    BitVec.extractLsb'_append_eq_of_add_le, Nat.reduceSub, BitVec.extractLsb'_eq_self]

theorem Fields16.join_split (p : BitVec 16) : (Fields16.split p).join = p := by
  apply BitVec.eq_of_getLsbD_eq
  intro i hi
  simp only [Fields16.split, Fields16.join, BitVec.getLsbD_append, BitVec.getLsbD_extractLsb']
  interval_cases i <;> rfl

/-! ### What was placed is gathered: 32-bit formats -/

@[simp] theorem Fields32.immI_typeI (op : BitVec 7) (f3 : BitVec 3) (rd rs1 : RegIdx) (imm : BitVec 12) :
    (Fields32.typeI op f3 rd rs1 imm).immI = imm := by
  apply BitVec.eq_of_getLsbD_eq
  intro i hi
  simp only [Fields32.typeI, Fields32.immI, BitVec.getLsbD_append, BitVec.getLsbD_extractLsb']
  interval_cases i <;> rfl

@[simp] theorem Fields32.immS_typeS (op : BitVec 7) (f3 : BitVec 3) (rs1 rs2 : RegIdx) (imm : BitVec 12) :
    (Fields32.typeS op f3 rs1 rs2 imm).immS = imm := by
  apply BitVec.eq_of_getLsbD_eq
  intro i hi
  simp only [Fields32.typeS, Fields32.immS, BitVec.getLsbD_append, BitVec.getLsbD_extractLsb']
  interval_cases i <;> rfl

@[simp] theorem Fields32.immB_typeB (op : BitVec 7) (f3 : BitVec 3) (rs1 rs2 : RegIdx) (imm : BitVec 12) :
    (Fields32.typeB op f3 rs1 rs2 imm).immB = imm := by
  apply BitVec.eq_of_getLsbD_eq
  intro i hi
  simp only [Fields32.typeB, Fields32.immB, BitVec.getLsbD_append, BitVec.getLsbD_extractLsb']
  interval_cases i <;> rfl

@[simp] theorem Fields32.immU_typeU (op : BitVec 7) (rd : RegIdx) (imm : BitVec 20) :
    (Fields32.typeU op rd imm).immU = imm := by
  apply BitVec.eq_of_getLsbD_eq
  intro i hi
  simp only [Fields32.typeU, Fields32.immU, BitVec.getLsbD_append, BitVec.getLsbD_extractLsb']
  interval_cases i <;> rfl

@[simp] theorem Fields32.immJ_typeJ (op : BitVec 7) (rd : RegIdx) (imm : BitVec 20) :
    (Fields32.typeJ op rd imm).immJ = imm := by
  apply BitVec.eq_of_getLsbD_eq
  intro i hi
  simp only [Fields32.typeJ, Fields32.immJ, BitVec.getLsbD_append, BitVec.getLsbD_extractLsb']
  interval_cases i <;> rfl

@[simp] theorem Fields32.shamt6_typeShift64 (op : BitVec 7) (f3 : BitVec 3) (f6 : BitVec 6) (rd rs1 : RegIdx) (sh : BitVec 6) :
    (Fields32.typeShift64 op f3 f6 rd rs1 sh).shamt6 = sh := by
  apply BitVec.eq_of_getLsbD_eq
  intro i hi
  simp only [Fields32.typeShift64, Fields32.shamt6, BitVec.getLsbD_append, BitVec.getLsbD_extractLsb']
  interval_cases i <;> rfl

@[simp] theorem Fields32.funct6_typeShift64 (op : BitVec 7) (f3 : BitVec 3) (f6 : BitVec 6) (rd rs1 : RegIdx) (sh : BitVec 6) :
    (Fields32.typeShift64 op f3 f6 rd rs1 sh).funct7.extractLsb' 1 6 = f6 := by
  apply BitVec.eq_of_getLsbD_eq
  intro i hi
  simp only [Fields32.typeShift64, BitVec.getLsbD_append, BitVec.getLsbD_extractLsb']
  interval_cases i <;> rfl

@[simp] theorem Fields32.above_typeAny (op : BitVec 7) (b : BitVec 25) :
    (Fields32.typeAny op b).above = b := by
  apply BitVec.eq_of_getLsbD_eq
  intro i hi
  simp only [Fields32.typeAny, Fields32.above, BitVec.getLsbD_append, BitVec.getLsbD_extractLsb']
  interval_cases i <;> rfl

@[simp] theorem Fields32.funct5_typeAmo (f3 : BitVec 3) (f5 : BitVec 5) (rd rs1 rs2 : RegIdx) (aq rl : BitVec 1) :
    (Fields32.typeAmo f3 f5 rd rs1 rs2 aq rl).funct7.extractLsb' 2 5 = f5 := by
  apply BitVec.eq_of_getLsbD_eq
  intro i hi
  simp only [Fields32.typeAmo, BitVec.getLsbD_append, BitVec.getLsbD_extractLsb']
  interval_cases i <;> rfl

@[simp] theorem Fields32.aq_typeAmo (f3 : BitVec 3) (f5 : BitVec 5) (rd rs1 rs2 : RegIdx) (aq rl : BitVec 1) :
    (Fields32.typeAmo f3 f5 rd rs1 rs2 aq rl).funct7.extractLsb' 1 1 = aq := by
  apply BitVec.eq_of_getLsbD_eq
  intro i hi
  simp only [Fields32.typeAmo, BitVec.getLsbD_append, BitVec.getLsbD_extractLsb']
  obtain rfl : i = 0 := by omega
  rfl

@[simp] theorem Fields32.rl_typeAmo (f3 : BitVec 3) (f5 : BitVec 5) (rd rs1 rs2 : RegIdx) (aq rl : BitVec 1) :
    (Fields32.typeAmo f3 f5 rd rs1 rs2 aq rl).funct7.extractLsb' 0 1 = rl := by
  apply BitVec.eq_of_getLsbD_eq
  intro i hi
  simp only [Fields32.typeAmo, BitVec.getLsbD_append, BitVec.getLsbD_extractLsb']
  obtain rfl : i = 0 := by omega
  rfl

/-! ### What was placed is gathered: 16-bit formats -/

@[simp] theorem Fields16.r_typeCI (q : BitVec 2) (f3 : BitVec 3) (r : RegIdx) (imm : BitVec 6) :
    (Fields16.typeCI q f3 r imm).r = r := by
  apply BitVec.eq_of_getLsbD_eq
  intro i hi
  simp only [Fields16.typeCI, Fields16.r, BitVec.getLsbD_append, BitVec.getLsbD_extractLsb']
  interval_cases i <;> rfl

@[simp] theorem Fields16.imm6_typeCI (q : BitVec 2) (f3 : BitVec 3) (r : RegIdx) (imm : BitVec 6) :
    (Fields16.typeCI q f3 r imm).imm6 = imm := by
  apply BitVec.eq_of_getLsbD_eq
  intro i hi
  simp only [Fields16.typeCI, Fields16.imm6, BitVec.getLsbD_append, BitVec.getLsbD_extractLsb']
  interval_cases i <;> rfl

@[simp] theorem Fields16.r_typeCR (f4 : BitVec 1) (r r2 : RegIdx) :
    (Fields16.typeCR f4 r r2).r = r := by
  apply BitVec.eq_of_getLsbD_eq
  intro i hi
  simp only [Fields16.typeCR, Fields16.r, BitVec.getLsbD_append, BitVec.getLsbD_extractLsb']
  interval_cases i <;> rfl

@[simp] theorem Fields16.r2_typeCR (f4 : BitVec 1) (r r2 : RegIdx) :
    (Fields16.typeCR f4 r r2).r2 = r2 := by
  apply BitVec.eq_of_getLsbD_eq
  intro i hi
  simp only [Fields16.typeCR, Fields16.r2, BitVec.getLsbD_append, BitVec.getLsbD_extractLsb']
  interval_cases i <;> rfl

@[simp] theorem Fields16.imm6_typeCBImm (f2 : BitVec 2) (r : CRegIdx) (imm : BitVec 6) :
    (Fields16.typeCBImm f2 r imm).imm6 = imm := by
  apply BitVec.eq_of_getLsbD_eq
  intro i hi
  simp only [Fields16.typeCBImm, Fields16.imm6, BitVec.getLsbD_append, BitVec.getLsbD_extractLsb']
  interval_cases i <;> rfl

@[simp] theorem Fields16.immSpn_typeSpn (rd : CRegIdx) (imm : BitVec 8) :
    (Fields16.typeSpn rd imm).immSpn = imm := by
  apply BitVec.eq_of_getLsbD_eq
  intro i hi
  simp only [Fields16.typeSpn, Fields16.immSpn, BitVec.getLsbD_append, BitVec.getLsbD_extractLsb']
  interval_cases i <;> rfl

@[simp] theorem Fields16.immWord_typeCWord (f3 : BitVec 3) (r r2 : CRegIdx) (imm : BitVec 5) :
    (Fields16.typeCWord f3 r r2 imm).immWord = imm := by
  apply BitVec.eq_of_getLsbD_eq
  intro i hi
  simp only [Fields16.typeCWord, Fields16.immWord, BitVec.getLsbD_append, BitVec.getLsbD_extractLsb']
  interval_cases i <;> rfl

@[simp] theorem Fields16.immDouble_typeCDouble (f3 : BitVec 3) (r r2 : CRegIdx) (imm : BitVec 5) :
    (Fields16.typeCDouble f3 r r2 imm).immDouble = imm := by
  apply BitVec.eq_of_getLsbD_eq
  intro i hi
  simp only [Fields16.typeCDouble, Fields16.immDouble, BitVec.getLsbD_append, BitVec.getLsbD_extractLsb']
  interval_cases i <;> rfl

@[simp] theorem Fields16.r_type16sp (imm : BitVec 6) : (Fields16.type16sp imm).r = 2 :=
  show (0#2 ++ 2#3 : BitVec 5) = 2 by decide

@[simp] theorem Fields16.imm16sp_type16sp (imm : BitVec 6) :
    (Fields16.type16sp imm).imm16sp = imm := by
  apply BitVec.eq_of_getLsbD_eq
  intro i hi
  simp only [Fields16.type16sp, Fields16.imm16sp, BitVec.getLsbD_append, BitVec.getLsbD_extractLsb']
  interval_cases i <;> rfl

@[simp] theorem Fields16.immJump_typeCJ (imm : BitVec 11) :
    (Fields16.typeCJ imm).immJump = imm := by
  apply BitVec.eq_of_getLsbD_eq
  intro i hi
  simp only [Fields16.typeCJ, Fields16.immJump, BitVec.getLsbD_append, BitVec.getLsbD_extractLsb']
  interval_cases i <;> rfl

@[simp] theorem Fields16.immBranch_typeCBranch (f3 : BitVec 3) (r : CRegIdx) (imm : BitVec 8) :
    (Fields16.typeCBranch f3 r imm).immBranch = imm := by
  apply BitVec.eq_of_getLsbD_eq
  intro i hi
  simp only [Fields16.typeCBranch, Fields16.immBranch, BitVec.getLsbD_append, BitVec.getLsbD_extractLsb']
  interval_cases i <;> rfl

@[simp] theorem Fields16.r_typeLwsp (r : RegIdx) (imm : BitVec 6) :
    (Fields16.typeLwsp r imm).r = r := by
  apply BitVec.eq_of_getLsbD_eq
  intro i hi
  simp only [Fields16.typeLwsp, Fields16.r, BitVec.getLsbD_append, BitVec.getLsbD_extractLsb']
  interval_cases i <;> rfl

@[simp] theorem Fields16.immLwsp_typeLwsp (r : RegIdx) (imm : BitVec 6) :
    (Fields16.typeLwsp r imm).immLwsp = imm := by
  apply BitVec.eq_of_getLsbD_eq
  intro i hi
  simp only [Fields16.typeLwsp, Fields16.immLwsp, BitVec.getLsbD_append, BitVec.getLsbD_extractLsb']
  interval_cases i <;> rfl

@[simp] theorem Fields16.r_typeLdsp (r : RegIdx) (imm : BitVec 6) :
    (Fields16.typeLdsp r imm).r = r := by
  apply BitVec.eq_of_getLsbD_eq
  intro i hi
  simp only [Fields16.typeLdsp, Fields16.r, BitVec.getLsbD_append, BitVec.getLsbD_extractLsb']
  interval_cases i <;> rfl

@[simp] theorem Fields16.immLdsp_typeLdsp (r : RegIdx) (imm : BitVec 6) :
    (Fields16.typeLdsp r imm).immLdsp = imm := by
  apply BitVec.eq_of_getLsbD_eq
  intro i hi
  simp only [Fields16.typeLdsp, Fields16.immLdsp, BitVec.getLsbD_append, BitVec.getLsbD_extractLsb']
  interval_cases i <;> rfl

@[simp] theorem Fields16.r2_typeSwsp (r : RegIdx) (imm : BitVec 6) :
    (Fields16.typeSwsp r imm).r2 = r := by
  apply BitVec.eq_of_getLsbD_eq
  intro i hi
  simp only [Fields16.typeSwsp, Fields16.r2, BitVec.getLsbD_append, BitVec.getLsbD_extractLsb']
  interval_cases i <;> rfl

@[simp] theorem Fields16.immSwsp_typeSwsp (r : RegIdx) (imm : BitVec 6) :
    (Fields16.typeSwsp r imm).immSwsp = imm := by
  apply BitVec.eq_of_getLsbD_eq
  intro i hi
  simp only [Fields16.typeSwsp, Fields16.immSwsp, BitVec.getLsbD_append, BitVec.getLsbD_extractLsb']
  interval_cases i <;> rfl

@[simp] theorem Fields16.r2_typeSdsp (r : RegIdx) (imm : BitVec 6) :
    (Fields16.typeSdsp r imm).r2 = r := by
  apply BitVec.eq_of_getLsbD_eq
  intro i hi
  simp only [Fields16.typeSdsp, Fields16.r2, BitVec.getLsbD_append, BitVec.getLsbD_extractLsb']
  interval_cases i <;> rfl

@[simp] theorem Fields16.immSdsp_typeSdsp (r : RegIdx) (imm : BitVec 6) :
    (Fields16.typeSdsp r imm).immSdsp = imm := by
  apply BitVec.eq_of_getLsbD_eq
  intro i hi
  simp only [Fields16.typeSdsp, Fields16.immSdsp, BitVec.getLsbD_append, BitVec.getLsbD_extractLsb']
  interval_cases i <;> rfl

@[simp] theorem Fields16.above_typeAny (q : BitVec 2) (f3 : BitVec 3) (b : BitVec 11) :
    (Fields16.typeAny q f3 b).above = b := by
  apply BitVec.eq_of_getLsbD_eq
  intro i hi
  simp only [Fields16.typeAny, Fields16.above, BitVec.getLsbD_append, BitVec.getLsbD_extractLsb']
  interval_cases i <;> rfl

/-! ### What was gathered is placed back -/

theorem Fields32.typeI_immI (f : Fields32) (op : BitVec 7) (f3 : BitVec 3) :
    Fields32.typeI op f3 f.rd f.rs1 f.immI = ⟨f.funct7, f.rs2, f.rs1, f3, f.rd, op⟩ := by
  simp only [Fields32.typeI, Fields32.immI, Fields32.mk.injEq]
  refine ⟨?_, ?_, ?_, ?_, ?_, ?_⟩ <;>
    first
    | trivial
    | (apply BitVec.eq_of_getLsbD_eq
       intro i hi
       simp only [BitVec.getLsbD_append, BitVec.getLsbD_extractLsb']
       interval_cases i <;> rfl)

theorem Fields32.typeS_immS (f : Fields32) (op : BitVec 7) (f3 : BitVec 3) :
    Fields32.typeS op f3 f.rs1 f.rs2 f.immS = ⟨f.funct7, f.rs2, f.rs1, f3, f.rd, op⟩ := by
  simp only [Fields32.typeS, Fields32.immS, Fields32.mk.injEq]
  refine ⟨?_, ?_, ?_, ?_, ?_, ?_⟩ <;>
    first
    | trivial
    | (apply BitVec.eq_of_getLsbD_eq
       intro i hi
       simp only [BitVec.getLsbD_append, BitVec.getLsbD_extractLsb']
       interval_cases i <;> rfl)

theorem Fields32.typeB_immB (f : Fields32) (op : BitVec 7) (f3 : BitVec 3) :
    Fields32.typeB op f3 f.rs1 f.rs2 f.immB = ⟨f.funct7, f.rs2, f.rs1, f3, f.rd, op⟩ := by
  simp only [Fields32.typeB, Fields32.immB, Fields32.mk.injEq]
  refine ⟨?_, ?_, ?_, ?_, ?_, ?_⟩ <;>
    first
    | trivial
    | (apply BitVec.eq_of_getLsbD_eq
       intro i hi
       simp only [BitVec.getLsbD_append, BitVec.getLsbD_extractLsb']
       interval_cases i <;> rfl)

theorem Fields32.typeU_immU (f : Fields32) (op : BitVec 7) :
    Fields32.typeU op f.rd f.immU = ⟨f.funct7, f.rs2, f.rs1, f.funct3, f.rd, op⟩ := by
  simp only [Fields32.typeU, Fields32.immU, Fields32.mk.injEq]
  refine ⟨?_, ?_, ?_, ?_, ?_, ?_⟩ <;>
    first
    | trivial
    | (apply BitVec.eq_of_getLsbD_eq
       intro i hi
       simp only [BitVec.getLsbD_append, BitVec.getLsbD_extractLsb']
       interval_cases i <;> rfl)

theorem Fields32.typeJ_immJ (f : Fields32) (op : BitVec 7) :
    Fields32.typeJ op f.rd f.immJ = ⟨f.funct7, f.rs2, f.rs1, f.funct3, f.rd, op⟩ := by
  simp only [Fields32.typeJ, Fields32.immJ, Fields32.mk.injEq]
  refine ⟨?_, ?_, ?_, ?_, ?_, ?_⟩ <;>
    first
    | trivial
    | (apply BitVec.eq_of_getLsbD_eq
       intro i hi
       simp only [BitVec.getLsbD_append, BitVec.getLsbD_extractLsb']
       interval_cases i <;> rfl)

theorem Fields32.typeAny_above (f : Fields32) (op : BitVec 7) :
    Fields32.typeAny op f.above = ⟨f.funct7, f.rs2, f.rs1, f.funct3, f.rd, op⟩ := by
  simp only [Fields32.typeAny, Fields32.above, Fields32.mk.injEq]
  refine ⟨?_, ?_, ?_, ?_, ?_, ?_⟩ <;>
    first
    | trivial
    | (apply BitVec.eq_of_getLsbD_eq
       intro i hi
       simp only [BitVec.getLsbD_append, BitVec.getLsbD_extractLsb']
       interval_cases i <;> rfl)

theorem Fields32.typeShift64_shamt6 (f : Fields32) (op : BitVec 7) (f3 : BitVec 3) :
    Fields32.typeShift64 op f3 (f.funct7.extractLsb' 1 6) f.rd f.rs1 f.shamt6 = ⟨f.funct7, f.rs2, f.rs1, f3, f.rd, op⟩ := by
  simp only [Fields32.typeShift64, Fields32.shamt6, Fields32.mk.injEq]
  refine ⟨?_, ?_, ?_, ?_, ?_, ?_⟩ <;>
    first
    | trivial
    | (apply BitVec.eq_of_getLsbD_eq
       intro i hi
       simp only [BitVec.getLsbD_append, BitVec.getLsbD_extractLsb']
       interval_cases i <;> rfl)

theorem Fields32.typeAmo_fields (f : Fields32) (f3 : BitVec 3) (rs2 : RegIdx) :
    Fields32.typeAmo f3 (f.funct7.extractLsb' 2 5) f.rd f.rs1 rs2 (f.funct7.extractLsb' 1 1) (f.funct7.extractLsb' 0 1) = ⟨f.funct7, rs2, f.rs1, f3, f.rd, 0x2F⟩ := by
  simp only [Fields32.typeAmo, Fields32.mk.injEq]
  refine ⟨?_, ?_, ?_, ?_, ?_, ?_⟩ <;>
    first
    | trivial
    | (apply BitVec.eq_of_getLsbD_eq
       intro i hi
       simp only [BitVec.getLsbD_append, BitVec.getLsbD_extractLsb']
       interval_cases i <;> rfl)

theorem Fields16.typeCI_imm6 (f : Fields16) (q : BitVec 2) (f3 : BitVec 3) :
    Fields16.typeCI q f3 f.r f.imm6 = ⟨f3, f.b12, f.b11_10, f.b9_7, f.b6_5, f.b4_2, q⟩ := by
  simp only [Fields16.typeCI, Fields16.r, Fields16.imm6, Fields16.mk.injEq]
  refine ⟨?_, ?_, ?_, ?_, ?_, ?_, ?_⟩ <;>
    first
    | trivial
    | (apply BitVec.eq_of_getLsbD_eq
       intro i hi
       simp only [BitVec.getLsbD_append, BitVec.getLsbD_extractLsb']
       interval_cases i <;> rfl)

theorem Fields16.typeCR_regs (f : Fields16) (f4 : BitVec 1) :
    Fields16.typeCR f4 f.r f.r2 = ⟨4, f4, f.b11_10, f.b9_7, f.b6_5, f.b4_2, 2⟩ := by
  simp only [Fields16.typeCR, Fields16.r, Fields16.r2, Fields16.mk.injEq]
  refine ⟨?_, ?_, ?_, ?_, ?_, ?_, ?_⟩ <;>
    first
    | trivial
    | (apply BitVec.eq_of_getLsbD_eq
       intro i hi
       simp only [BitVec.getLsbD_append, BitVec.getLsbD_extractLsb']
       interval_cases i <;> rfl)

theorem Fields16.typeCBImm_imm6 (f : Fields16) (f2 : BitVec 2) :
    Fields16.typeCBImm f2 f.b9_7 f.imm6 = ⟨4, f.b12, f2, f.b9_7, f.b6_5, f.b4_2, 1⟩ := by
  simp only [Fields16.typeCBImm, Fields16.imm6, Fields16.mk.injEq]
  refine ⟨?_, ?_, ?_, ?_, ?_, ?_, ?_⟩ <;>
    first
    | trivial
    | (apply BitVec.eq_of_getLsbD_eq
       intro i hi
       simp only [BitVec.getLsbD_append, BitVec.getLsbD_extractLsb']
       interval_cases i <;> rfl)

theorem Fields16.typeSpn_immSpn (f : Fields16) :
    Fields16.typeSpn f.b4_2 f.immSpn = ⟨0, f.b12, f.b11_10, f.b9_7, f.b6_5, f.b4_2, 0⟩ := by
  simp only [Fields16.typeSpn, Fields16.immSpn, Fields16.mk.injEq]
  refine ⟨?_, ?_, ?_, ?_, ?_, ?_, ?_⟩ <;>
    first
    | trivial
    | (apply BitVec.eq_of_getLsbD_eq
       intro i hi
       simp only [BitVec.getLsbD_append, BitVec.getLsbD_extractLsb']
       interval_cases i <;> rfl)

theorem Fields16.typeCWord_immWord (f : Fields16) (f3 : BitVec 3) :
    Fields16.typeCWord f3 f.b9_7 f.b4_2 f.immWord = ⟨f3, f.b12, f.b11_10, f.b9_7, f.b6_5, f.b4_2, 0⟩ := by
  simp only [Fields16.typeCWord, Fields16.immWord, Fields16.mk.injEq]
  refine ⟨?_, ?_, ?_, ?_, ?_, ?_, ?_⟩ <;>
    first
    | trivial
    | (apply BitVec.eq_of_getLsbD_eq
       intro i hi
       simp only [BitVec.getLsbD_append, BitVec.getLsbD_extractLsb']
       interval_cases i <;> rfl)

theorem Fields16.typeCDouble_immDouble (f : Fields16) (f3 : BitVec 3) :
    Fields16.typeCDouble f3 f.b9_7 f.b4_2 f.immDouble = ⟨f3, f.b12, f.b11_10, f.b9_7, f.b6_5, f.b4_2, 0⟩ := by
  simp only [Fields16.typeCDouble, Fields16.immDouble, Fields16.mk.injEq]
  refine ⟨?_, ?_, ?_, ?_, ?_, ?_, ?_⟩ <;>
    first
    | trivial
    | (apply BitVec.eq_of_getLsbD_eq
       intro i hi
       simp only [BitVec.getLsbD_append, BitVec.getLsbD_extractLsb']
       interval_cases i <;> rfl)

theorem Fields16.typeCJ_immJump (f : Fields16) :
    Fields16.typeCJ f.immJump = ⟨5, f.b12, f.b11_10, f.b9_7, f.b6_5, f.b4_2, 1⟩ := by
  simp only [Fields16.typeCJ, Fields16.immJump, Fields16.mk.injEq]
  refine ⟨?_, ?_, ?_, ?_, ?_, ?_, ?_⟩ <;>
    first
    | trivial
    | (apply BitVec.eq_of_getLsbD_eq
       intro i hi
       simp only [BitVec.getLsbD_append, BitVec.getLsbD_extractLsb']
       interval_cases i <;> rfl)

theorem Fields16.typeCBranch_immBranch (f : Fields16) (f3 : BitVec 3) :
    Fields16.typeCBranch f3 f.b9_7 f.immBranch = ⟨f3, f.b12, f.b11_10, f.b9_7, f.b6_5, f.b4_2, 1⟩ := by
  simp only [Fields16.typeCBranch, Fields16.immBranch, Fields16.mk.injEq]
  refine ⟨?_, ?_, ?_, ?_, ?_, ?_, ?_⟩ <;>
    first
    | trivial
    | (apply BitVec.eq_of_getLsbD_eq
       intro i hi
       simp only [BitVec.getLsbD_append, BitVec.getLsbD_extractLsb']
       interval_cases i <;> rfl)

theorem Fields16.typeLwsp_immLwsp (f : Fields16) :
    Fields16.typeLwsp f.r f.immLwsp = ⟨2, f.b12, f.b11_10, f.b9_7, f.b6_5, f.b4_2, 2⟩ := by
  simp only [Fields16.typeLwsp, Fields16.r, Fields16.immLwsp, Fields16.mk.injEq]
  refine ⟨?_, ?_, ?_, ?_, ?_, ?_, ?_⟩ <;>
    first
    | trivial
    | (apply BitVec.eq_of_getLsbD_eq
       intro i hi
       simp only [BitVec.getLsbD_append, BitVec.getLsbD_extractLsb']
       interval_cases i <;> rfl)

theorem Fields16.typeLdsp_immLdsp (f : Fields16) :
    Fields16.typeLdsp f.r f.immLdsp = ⟨3, f.b12, f.b11_10, f.b9_7, f.b6_5, f.b4_2, 2⟩ := by
  simp only [Fields16.typeLdsp, Fields16.r, Fields16.immLdsp, Fields16.mk.injEq]
  refine ⟨?_, ?_, ?_, ?_, ?_, ?_, ?_⟩ <;>
    first
    | trivial
    | (apply BitVec.eq_of_getLsbD_eq
       intro i hi
       simp only [BitVec.getLsbD_append, BitVec.getLsbD_extractLsb']
       interval_cases i <;> rfl)

theorem Fields16.typeSwsp_immSwsp (f : Fields16) :
    Fields16.typeSwsp f.r2 f.immSwsp = ⟨6, f.b12, f.b11_10, f.b9_7, f.b6_5, f.b4_2, 2⟩ := by
  simp only [Fields16.typeSwsp, Fields16.r2, Fields16.immSwsp, Fields16.mk.injEq]
  refine ⟨?_, ?_, ?_, ?_, ?_, ?_, ?_⟩ <;>
    first
    | trivial
    | (apply BitVec.eq_of_getLsbD_eq
       intro i hi
       simp only [BitVec.getLsbD_append, BitVec.getLsbD_extractLsb']
       interval_cases i <;> rfl)

theorem Fields16.typeSdsp_immSdsp (f : Fields16) :
    Fields16.typeSdsp f.r2 f.immSdsp = ⟨7, f.b12, f.b11_10, f.b9_7, f.b6_5, f.b4_2, 2⟩ := by
  simp only [Fields16.typeSdsp, Fields16.r2, Fields16.immSdsp, Fields16.mk.injEq]
  refine ⟨?_, ?_, ?_, ?_, ?_, ?_, ?_⟩ <;>
    first
    | trivial
    | (apply BitVec.eq_of_getLsbD_eq
       intro i hi
       simp only [BitVec.getLsbD_append, BitVec.getLsbD_extractLsb']
       interval_cases i <;> rfl)

theorem Fields16.typeAny_above (f : Fields16) (q : BitVec 2) (f3 : BitVec 3) :
    Fields16.typeAny q f3 f.above = ⟨f3, f.b12, f.b11_10, f.b9_7, f.b6_5, f.b4_2, q⟩ := by
  simp only [Fields16.typeAny, Fields16.above, Fields16.mk.injEq]
  refine ⟨?_, ?_, ?_, ?_, ?_, ?_, ?_⟩ <;>
    first
    | trivial
    | (apply BitVec.eq_of_getLsbD_eq
       intro i hi
       simp only [BitVec.getLsbD_append, BitVec.getLsbD_extractLsb']
       interval_cases i <;> rfl)

/-- C.ADDI16SP: the register field must be x2 (R451). -/
theorem Fields16.type16sp_imm16sp (f : Fields16) (h : f.r = 2) :
    Fields16.type16sp f.imm16sp = ⟨3, f.b12, f.b11_10, f.b9_7, f.b6_5, f.b4_2, 1⟩ := by
  obtain ⟨f3, b12, b11, b9, b6, b4, q⟩ := f
  have h1 : b11 = 0 ∧ b9 = 2 := by
    revert h
    simp only [Fields16.r]
    revert b11 b9
    decide
  obtain ⟨rfl, rfl⟩ := h1
  simp only [Fields16.type16sp, Fields16.imm16sp, Fields16.mk.injEq, true_and, and_true]
  refine ⟨?_, ?_, ?_⟩ <;>
    (apply BitVec.eq_of_getLsbD_eq
     intro i hi
     simp only [BitVec.getLsbD_append, BitVec.getLsbD_extractLsb']
     interval_cases i <;> rfl)

end Sys2Proof
end

