-- ==== Sys2Proof/Laws/Memory.lean ====
section
/-! SUPPORT. The laws of the byte memory: every operation keeps the canonical form, and a read after a write. -/

namespace Sys2Proof.Machine

theorem Memory.wf_nil : Memory.wf [] = true := rfl

theorem Memory.wfFrom_cons (lo a : Nat) (b : Byte) (m : Memory) :
    Memory.wfFrom lo ((a, b) :: m) = true ↔ lo ≤ a ∧ Memory.wfFrom (a + 1) m = true := by
  simp [Memory.wfFrom]

/-- A list canonical above an address is canonical above a lower one. -/
theorem Memory.wfFrom_mono {lo lo' : Nat} (h : lo' ≤ lo) {m : Memory} (hm : m.wfFrom lo = true) :
    m.wfFrom lo' = true := by
  cases m with
  | nil => rfl
  | cons c m =>
    obtain ⟨a, b⟩ := c
    rw [Memory.wfFrom_cons] at hm ⊢
    exact ⟨h.trans hm.1, hm.2⟩

/-- A canonical list lists nothing below its first address. -/
theorem Memory.find_below {lo k : Nat} {m : Memory} (hm : m.wfFrom lo = true) (hk : k < lo) : m.find k = none := by
  cases m with
  | nil => rfl
  | cons c m =>
    obtain ⟨a, b⟩ := c
    rw [Memory.wfFrom_cons] at hm
    have h1 : k ≠ a := by omega
    have h2 : k < a := by omega
    simp [Memory.find, h1, h2]

theorem Memory.write_wfFrom {lo k : Nat} {b : Byte} {m : Memory} (hm : m.wfFrom lo = true) (hk : lo ≤ k) :
    (m.write k b).wfFrom lo = true := by
  induction m generalizing lo with
  | nil => simp [Memory.write, Memory.wfFrom, hk]
  | cons c m ih =>
    obtain ⟨a, v⟩ := c
    rw [Memory.wfFrom_cons] at hm
    obtain ⟨h1, h3⟩ := hm
    by_cases hlt : k < a
    · simp only [Memory.write, hlt, if_true, Memory.wfFrom_cons]
      exact ⟨hk, by omega, h3⟩
    · by_cases heq : k = a
      · subst heq
        simp only [Memory.write, hlt, if_false, if_true, Memory.wfFrom_cons]
        exact ⟨hk, h3⟩
      · simp only [Memory.write, hlt, heq, if_false, Memory.wfFrom_cons]
        exact ⟨h1, ih h3 (by omega)⟩

/-- A write keeps the canonical form. -/
theorem Memory.write_wf {m : Memory} (hm : m.wf = true) (k : Nat) (b : Byte) : (m.write k b).wf = true :=
  Memory.write_wfFrom hm (Nat.zero_le k)

theorem Memory.writeAll_wf {m : Memory} (hm : m.wf = true) (l : List Host.Cell) : (m.writeAll l).wf = true := by
  induction l generalizing m with
  | nil => exact hm
  | cons c l ih => exact ih (Memory.write_wf hm c.1 c.2)

theorem Memory.writeLE_wf {m : Memory} (hm : m.wf = true) (k n : Nat) (v : Word) : (m.writeLE k n v).wf = true := by
  induction n generalizing m k v with
  | zero => exact hm
  | succ n ih => exact ih (Memory.write_wf hm _ _) _ _

/-- What is listed after a write: the byte written at its own address, what was listed everywhere else. -/
theorem Memory.find_write (m : Memory) (k k' : Nat) (b : Byte) :
    (m.write k b).find k' = if k' = k then some b else m.find k' := by
  induction m with
  | nil =>
    by_cases h : k' = k <;> simp [Memory.write, Memory.find, h]
  | cons c m ih =>
    obtain ⟨a, v⟩ := c
    by_cases hlt : k < a
    · by_cases h : k' = k
      · simp [Memory.write, Memory.find, hlt, h]
      · by_cases h' : k' < k
        · have h2 : k' ≠ a := by omega
          have h3 : k' < a := by omega
          simp [Memory.write, Memory.find, hlt, h, h', h2, h3]
        · simp [Memory.write, Memory.find, hlt, h, h']
    · by_cases heq : k = a
      · subst heq
        by_cases h : k' = k <;> simp [Memory.write, Memory.find, h]
      · by_cases h : k' = a
        · have h2 : ¬ k' = k := by omega
          subst h
          simp [Memory.write, Memory.find, hlt, heq, h2]
        · by_cases h' : k' < a
          · have h2 : k' ≠ k := by omega
            simp [Memory.write, Memory.find, hlt, heq, h, h', h2]
          · simp [Memory.write, Memory.find, hlt, heq, h, h', ih]

/-- A read after a write: the byte written at its own address, what was there everywhere else. -/
theorem Memory.read_write (m : Memory) (k k' : Nat) (b : Byte) :
    (m.write k b).read k' = if k' = k then b else m.read k' := by
  simp only [Memory.read, Memory.find_write]
  by_cases h : k' = k <;> simp [h]

/-- A byte that nothing has written reads as its initial free value (R572). -/
theorem Memory.read_unwritten {m : Memory} {k : Nat} (h : m.find k = none) : m.read k = Memory.blank k := by
  simp [Memory.read, h]

/-- The bytes after an n-byte little-endian store (R110): byte i of the value at k + i, nothing else changed. -/
theorem Memory.read_writeLE (m : Memory) (k n : Nat) (v : Word) (k' : Nat) :
    (m.writeLE k n v).read k' =
      if k ≤ k' ∧ k' < k + n then v.extractLsb' (8 * (k' - k)) 8 else m.read k' := by
  induction n generalizing m k v with
  | zero =>
    have : ¬ (k ≤ k' ∧ k' < k + 0) := by omega
    simp [Memory.writeLE]
  | succ n ih =>
    rw [Memory.writeLE, ih, Memory.read_write]
    by_cases h : k' = k
    · subst h
      have h1 : ¬ (k' + 1 ≤ k' ∧ k' < k' + 1 + n) := by omega
      have h2 : k' ≤ k' ∧ k' < k' + (n + 1) := by omega
      simp only [h1, h2, if_true, if_false, Nat.sub_self, Nat.mul_zero]
      ext i hi
      simp
    · by_cases h' : k + 1 ≤ k' ∧ k' < k + 1 + n
      · have h2 : k ≤ k' ∧ k' < k + (n + 1) := by omega
        have h3 : 8 * (k' - k) = 8 + 8 * (k' - (k + 1)) := by omega
        rw [if_pos h', if_pos h2, h3]
        ext i hi
        simp [Nat.add_assoc]
      · have h2 : ¬ (k ≤ k' ∧ k' < k + (n + 1)) := by omega
        rw [if_neg h', if_neg h2, if_neg h]

/-- Bit i of the n-byte value at k is bit `i % 8` of the byte `i / 8` on (R110), and 0 from bit 8n on. -/
theorem Memory.getLsbD_readLE (m : Memory) (k n i : Nat) (hn : n ≤ 8) :
    (m.readLE k n).getLsbD i = (decide (i < 8 * n) && (m.read (k + i / 8)).getLsbD (i % 8)) := by
  induction n generalizing k i with
  | zero => simp [Memory.readLE]
  | succ n ih =>
    rw [Memory.readLE, BitVec.getLsbD_or, BitVec.getLsbD_setWidth, BitVec.getLsbD_shiftLeft]
    by_cases h8 : i < 8
    · have h1 : i / 8 = 0 := by omega
      have h2 : i % 8 = i := by omega
      have h3 : i < 8 * (n + 1) := by omega
      have h4 : i < 64 := by omega
      simp [h8, h1, h2, h3, h4]
    · have hb : (m.read k).getLsbD i = false := BitVec.getLsbD_of_ge _ _ (by omega)
      rw [ih (k + 1) (i - 8) (by omega)]
      have h1 : k + 1 + (i - 8) / 8 = k + i / 8 := by omega
      have h2 : (i - 8) % 8 = i % 8 := by omega
      rw [h1, h2, hb]
      by_cases h3 : i < 8 * (n + 1)
      · have h4 : i - 8 < 8 * n := by omega
        have h5 : i < 64 := by omega
        simp [h8, h3, h4, h5]
      · have h4 : ¬ i - 8 < 8 * n := by omega
        simp [h3, h4]

/-- What was stored is what is read back, narrowed to its width. -/
theorem Memory.readLE_writeLE (m : Memory) (k n : Nat) (v : Word) (hn : n ≤ 8) (i : Nat) :
    ((m.writeLE k n v).readLE k n).getLsbD i = (decide (i < 8 * n) && v.getLsbD i) := by
  rw [Memory.getLsbD_readLE _ _ _ _ hn, Memory.read_writeLE]
  by_cases h : i < 8 * n
  · have h1 : k ≤ k + i / 8 ∧ k + i / 8 < k + n := by omega
    have h2 : 8 * (i / 8) + i % 8 = i := by omega
    have h3 : i % 8 < 8 := by omega
    simp [h, h1, h2, h3]
  · simp [h]

/-- A store elsewhere does not change what is read. -/
theorem Memory.readLE_writeLE_disjoint (m : Memory) (k n k' n' : Nat) (v : Word)
    (h : k' + n' ≤ k ∨ k + n ≤ k') : (m.writeLE k n v).readLE k' n' = m.readLE k' n' := by
  induction n' generalizing k' with
  | zero => rfl
  | succ n' ih =>
    have h1 : ¬ (k ≤ k' ∧ k' < k + n) := by omega
    rw [Memory.readLE, Memory.readLE, ih (k' + 1) (by omega), Memory.read_writeLE, if_neg h1]

/-- Two canonical memories that list the same bytes are one list. -/
theorem Memory.ext_of_find {lo : Nat} {m m' : Memory} (hm : m.wfFrom lo = true) (hm' : m'.wfFrom lo = true)
    (h : ∀ k, m.find k = m'.find k) : m = m' := by
  induction m generalizing lo m' with
  | nil =>
    cases m' with
    | nil => rfl
    | cons c m' =>
      obtain ⟨a, b⟩ := c
      have := h a
      simp [Memory.find] at this
  | cons c m ih =>
    obtain ⟨a, b⟩ := c
    rw [Memory.wfFrom_cons] at hm
    cases m' with
    | nil =>
      have := h a
      simp [Memory.find] at this
    | cons c' m' =>
      obtain ⟨a', b'⟩ := c'
      rw [Memory.wfFrom_cons] at hm'
      have haa : a = a' := by
        rcases Nat.lt_trichotomy a a' with hlt | heq | hlt
        · have := h a
          simp [Memory.find, hlt, (show a ≠ a' by omega)] at this
        · exact heq
        · have := h a'
          simp [Memory.find, hlt, (show a' ≠ a by omega)] at this
      subst haa
      have hbb : b = b' := by simpa [Memory.find] using h a
      subst hbb
      congr 1
      refine ih hm.2 hm'.2 fun k => ?_
      by_cases hk : k < a + 1
      · rw [Memory.find_below hm.2 hk, Memory.find_below hm'.2 hk]
      · have := h k
        simpa [Memory.find, (show k ≠ a by omega), (show ¬ k < a by omega)] using this

end Sys2Proof.Machine
end

