-- ==== Sys2Proof/Laws/State.lean ====
section
/-! SUPPORT. The laws of the state's accessors: one lemma per field per update, the register file, the CSR slots. -/

namespace Sys2Proof.Machine

/-! ### State.setX -/

@[simp] theorem State.setX_fregs (s : State) (i : RegIdx) (v : Word) : (s.setX i v).fregs = s.fregs := by unfold State.setX; split <;> rfl
@[simp] theorem State.setX_pc (s : State) (i : RegIdx) (v : Word) : (s.setX i v).pc = s.pc := by unfold State.setX; split <;> rfl
@[simp] theorem State.setX_priv (s : State) (i : RegIdx) (v : Word) : (s.setX i v).priv = s.priv := by unfold State.setX; split <;> rfl
@[simp] theorem State.setX_csr (s : State) (i : RegIdx) (v : Word) : (s.setX i v).csr = s.csr := by unfold State.setX; split <;> rfl
@[simp] theorem State.setX_resv (s : State) (i : RegIdx) (v : Word) : (s.setX i v).resv = s.resv := by unfold State.setX; split <;> rfl
@[simp] theorem State.setX_halted (s : State) (i : RegIdx) (v : Word) : (s.setX i v).halted = s.halted := by unfold State.setX; split <;> rfl
@[simp] theorem State.setX_mem (s : State) (i : RegIdx) (v : Word) : (s.setX i v).mem = s.mem := by unfold State.setX; split <;> rfl
@[simp] theorem State.setX_rom (s : State) (i : RegIdx) (v : Word) : (s.setX i v).rom = s.rom := by unfold State.setX; split <;> rfl
@[simp] theorem State.setX_plat (s : State) (i : RegIdx) (v : Word) : (s.setX i v).plat = s.plat := by unfold State.setX; split <;> rfl
@[simp] theorem State.setX_irqInputs (s : State) (i : RegIdx) (v : Word) : (s.setX i v).irqInputs = s.irqInputs := by unfold State.setX; split <;> rfl
@[simp] theorem State.setX_draws (s : State) (i : RegIdx) (v : Word) : (s.setX i v).draws = s.draws := by unfold State.setX; split <;> rfl

/-! ### State.setPc -/

@[simp] theorem State.setPc_regs (s : State) (v : Word) : (s.setPc v).regs = s.regs := rfl
@[simp] theorem State.setPc_fregs (s : State) (v : Word) : (s.setPc v).fregs = s.fregs := rfl
@[simp] theorem State.setPc_pc (s : State) (v : Word) : (s.setPc v).pc = v := rfl
@[simp] theorem State.setPc_priv (s : State) (v : Word) : (s.setPc v).priv = s.priv := rfl
@[simp] theorem State.setPc_csr (s : State) (v : Word) : (s.setPc v).csr = s.csr := rfl
@[simp] theorem State.setPc_resv (s : State) (v : Word) : (s.setPc v).resv = s.resv := rfl
@[simp] theorem State.setPc_halted (s : State) (v : Word) : (s.setPc v).halted = s.halted := rfl
@[simp] theorem State.setPc_mem (s : State) (v : Word) : (s.setPc v).mem = s.mem := rfl
@[simp] theorem State.setPc_rom (s : State) (v : Word) : (s.setPc v).rom = s.rom := rfl
@[simp] theorem State.setPc_plat (s : State) (v : Word) : (s.setPc v).plat = s.plat := rfl
@[simp] theorem State.setPc_irqInputs (s : State) (v : Word) : (s.setPc v).irqInputs = s.irqInputs := rfl
@[simp] theorem State.setPc_draws (s : State) (v : Word) : (s.setPc v).draws = s.draws := rfl

/-! ### State.advance -/

@[simp] theorem State.advance_regs (s : State) (n : Word) : (s.advance n).regs = s.regs := rfl
@[simp] theorem State.advance_fregs (s : State) (n : Word) : (s.advance n).fregs = s.fregs := rfl
@[simp] theorem State.advance_pc (s : State) (n : Word) : (s.advance n).pc = s.pc + n := rfl
@[simp] theorem State.advance_priv (s : State) (n : Word) : (s.advance n).priv = s.priv := rfl
@[simp] theorem State.advance_csr (s : State) (n : Word) : (s.advance n).csr = s.csr := rfl
@[simp] theorem State.advance_resv (s : State) (n : Word) : (s.advance n).resv = s.resv := rfl
@[simp] theorem State.advance_halted (s : State) (n : Word) : (s.advance n).halted = s.halted := rfl
@[simp] theorem State.advance_mem (s : State) (n : Word) : (s.advance n).mem = s.mem := rfl
@[simp] theorem State.advance_rom (s : State) (n : Word) : (s.advance n).rom = s.rom := rfl
@[simp] theorem State.advance_plat (s : State) (n : Word) : (s.advance n).plat = s.plat := rfl
@[simp] theorem State.advance_irqInputs (s : State) (n : Word) : (s.advance n).irqInputs = s.irqInputs := rfl
@[simp] theorem State.advance_draws (s : State) (n : Word) : (s.advance n).draws = s.draws := rfl

/-! ### State.setCsr -/

@[simp] theorem State.setCsr_regs (s : State) (n : CsrName) (v : Word) : (s.setCsr n v).regs = s.regs := rfl
@[simp] theorem State.setCsr_fregs (s : State) (n : CsrName) (v : Word) : (s.setCsr n v).fregs = s.fregs := rfl
@[simp] theorem State.setCsr_pc (s : State) (n : CsrName) (v : Word) : (s.setCsr n v).pc = s.pc := rfl
@[simp] theorem State.setCsr_priv (s : State) (n : CsrName) (v : Word) : (s.setCsr n v).priv = s.priv := rfl
@[simp] theorem State.setCsr_csr (s : State) (n : CsrName) (v : Word) : (s.setCsr n v).csr = s.csr.set n v := rfl
@[simp] theorem State.setCsr_resv (s : State) (n : CsrName) (v : Word) : (s.setCsr n v).resv = s.resv := rfl
@[simp] theorem State.setCsr_halted (s : State) (n : CsrName) (v : Word) : (s.setCsr n v).halted = s.halted := rfl
@[simp] theorem State.setCsr_mem (s : State) (n : CsrName) (v : Word) : (s.setCsr n v).mem = s.mem := rfl
@[simp] theorem State.setCsr_rom (s : State) (n : CsrName) (v : Word) : (s.setCsr n v).rom = s.rom := rfl
@[simp] theorem State.setCsr_plat (s : State) (n : CsrName) (v : Word) : (s.setCsr n v).plat = s.plat := rfl
@[simp] theorem State.setCsr_irqInputs (s : State) (n : CsrName) (v : Word) : (s.setCsr n v).irqInputs = s.irqInputs := rfl
@[simp] theorem State.setCsr_draws (s : State) (n : CsrName) (v : Word) : (s.setCsr n v).draws = s.draws := rfl

/-! ### State.setResv -/

@[simp] theorem State.setResv_regs (s : State) (r : Option Reservation) : (s.setResv r).regs = s.regs := rfl
@[simp] theorem State.setResv_fregs (s : State) (r : Option Reservation) : (s.setResv r).fregs = s.fregs := rfl
@[simp] theorem State.setResv_pc (s : State) (r : Option Reservation) : (s.setResv r).pc = s.pc := rfl
@[simp] theorem State.setResv_priv (s : State) (r : Option Reservation) : (s.setResv r).priv = s.priv := rfl
@[simp] theorem State.setResv_csr (s : State) (r : Option Reservation) : (s.setResv r).csr = s.csr := rfl
@[simp] theorem State.setResv_resv (s : State) (r : Option Reservation) : (s.setResv r).resv = r := rfl
@[simp] theorem State.setResv_halted (s : State) (r : Option Reservation) : (s.setResv r).halted = s.halted := rfl
@[simp] theorem State.setResv_mem (s : State) (r : Option Reservation) : (s.setResv r).mem = s.mem := rfl
@[simp] theorem State.setResv_rom (s : State) (r : Option Reservation) : (s.setResv r).rom = s.rom := rfl
@[simp] theorem State.setResv_plat (s : State) (r : Option Reservation) : (s.setResv r).plat = s.plat := rfl
@[simp] theorem State.setResv_irqInputs (s : State) (r : Option Reservation) : (s.setResv r).irqInputs = s.irqInputs := rfl
@[simp] theorem State.setResv_draws (s : State) (r : Option Reservation) : (s.setResv r).draws = s.draws := rfl

/-! ### State.drew -/

@[simp] theorem State.drew_regs (s : State) : (s.drew).regs = s.regs := rfl
@[simp] theorem State.drew_fregs (s : State) : (s.drew).fregs = s.fregs := rfl
@[simp] theorem State.drew_pc (s : State) : (s.drew).pc = s.pc := rfl
@[simp] theorem State.drew_priv (s : State) : (s.drew).priv = s.priv := rfl
@[simp] theorem State.drew_csr (s : State) : (s.drew).csr = s.csr := rfl
@[simp] theorem State.drew_resv (s : State) : (s.drew).resv = s.resv := rfl
@[simp] theorem State.drew_halted (s : State) : (s.drew).halted = s.halted := rfl
@[simp] theorem State.drew_mem (s : State) : (s.drew).mem = s.mem := rfl
@[simp] theorem State.drew_rom (s : State) : (s.drew).rom = s.rom := rfl
@[simp] theorem State.drew_plat (s : State) : (s.drew).plat = s.plat := rfl
@[simp] theorem State.drew_irqInputs (s : State) : (s.drew).irqInputs = s.irqInputs := rfl
@[simp] theorem State.drew_draws (s : State) : (s.drew).draws = s.draws + 1 := rfl

/-! ### The integer registers (R30) -/

@[simp] theorem State.getX_zero (s : State) : s.getX 0#5 = 0 := rfl

@[simp] theorem State.setX_zero (s : State) (v : Word) : s.setX 0#5 v = s := rfl

@[simp] theorem State.getX_setPc (s : State) (v : Word) (i : RegIdx) : (s.setPc v).getX i = s.getX i := rfl
@[simp] theorem State.getX_advance (s : State) (n : Word) (i : RegIdx) : (s.advance n).getX i = s.getX i := rfl
@[simp] theorem State.getX_setCsr (s : State) (n : CsrName) (v : Word) (i : RegIdx) : (s.setCsr n v).getX i = s.getX i := rfl
@[simp] theorem State.getX_setResv (s : State) (r : Option Reservation) (i : RegIdx) : (s.setResv r).getX i = s.getX i := rfl
@[simp] theorem State.getX_drew (s : State) (i : RegIdx) : (s.drew).getX i = s.getX i := rfl

/-- A read after a write: x0 stays 0, the register written holds the value, every other is as before. -/
theorem State.getX_setX (s : State) (i j : RegIdx) (v : Word) :
    (s.setX i v).getX j = if j = 0 then 0 else if j = i then v else s.getX j := by
  by_cases hj : j = 0
  · rw [if_pos hj, hj]
    rfl
  · rw [if_neg hj]
    by_cases hi : i = 0
    · have h : ¬ j = i := fun e => hj (e.trans hi)
      rw [if_neg h, hi]
      rfl
    · have h1 := BitVec.toNat_ne_iff_ne.mpr hj
      have h2 := BitVec.toNat_ne_iff_ne.mpr hi
      have h3 : (0 : RegIdx).toNat = 0 := rfl
      by_cases h : j = i
      · subst h
        simp only [State.getX, State.setX, if_neg hj, if_pos, Vector.getElem_set_self]
      · have h4 := BitVec.toNat_ne_iff_ne.mpr h
        have h5 : i.toNat - 1 ≠ j.toNat - 1 := by omega
        simp only [State.getX, State.setX, if_neg hj, if_neg hi, if_neg h, Vector.getElem_set_ne _ _ h5]

theorem State.getX_setX_same (s : State) (i : RegIdx) (v : Word) (hi : i ≠ 0) : (s.setX i v).getX i = v := by
  rw [State.getX_setX, if_neg hi, if_pos rfl]

theorem State.getX_setX_other (s : State) (i j : RegIdx) (v : Word) (h : j ≠ i) : (s.setX i v).getX j = s.getX j := by
  rw [State.getX_setX, if_neg h]
  split
  · rename_i hj
    rw [hj]
    rfl
  · rfl

/-- States with the same register file read every register alike. -/
theorem State.getX_congr {s t : State} (h : t.regs = s.regs) (i : RegIdx) : t.getX i = s.getX i := by
  simp [State.getX, h]

/-! ### The stored CSRs (R50, R74) -/

theorem CsrFile.get_set_same (c : CsrFile) (n : CsrName) (v : Word) : (c.set n v).get n = v := by
  cases n <;> rfl

theorem CsrFile.get_set_other (c : CsrFile) (n m : CsrName) (v : Word) (h : m ≠ n) :
    (c.set n v).get m = c.get m := by
  cases n <;> cases m <;> first | rfl | exact absurd rfl h

theorem CsrFile.get_set (c : CsrFile) (n m : CsrName) (v : Word) :
    (c.set n v).get m = if m = n then v else c.get m := by
  by_cases h : m = n
  · rw [if_pos h, h, CsrFile.get_set_same]
  · rw [if_neg h, CsrFile.get_set_other _ _ _ _ h]

/-- Two CSR files with the same named registers and the same other slots are one. -/
theorem CsrFile.ext_get {c d : CsrFile} (h : ∀ n, c.get n = d.get n) (ho : c.others = d.others) : c = d := by
  have e : ∀ x : CsrFile, x = ⟨x.get .sstatus, x.get .sedeleg, x.get .sideleg, x.get .sie, x.get .stvec,
      x.get .scounteren, x.get .sscratch, x.get .sepc, x.get .scause, x.get .stval, x.get .sip, x.get .satp,
      x.get .mstatus, x.get .misa, x.get .medeleg, x.get .mideleg, x.get .mie, x.get .mtvec, x.get .mcounteren,
      x.get .mscratch, x.get .mepc, x.get .mcause, x.get .mtval, x.get .mip, x.get .mvendorid, x.get .marchid,
      x.get .mimpid, x.get .mhartid, x.others⟩ := fun _ => rfl
  rw [e c, e d]
  simp only [h, ho]

/-- Number and slot name each other (R50). -/
theorem CsrName.ofNumber_number (n : CsrName) : CsrName.ofNumber n.number = some n := by
  cases n <;> rfl

/-! ### The whole CSR array (R8, R17, R50) -/

@[simp] theorem CsrFile.set_others (c : CsrFile) (n : CsrName) (v : Word) : (c.set n v).others = c.others := by
  cases n <;> rfl

theorem CsrName.number_ofNumber {a : CsrNum} {n : CsrName} (h : CsrName.ofNumber a = some n) : n.number = a := by
  unfold CsrName.ofNumber at h
  split at h <;> cases h <;> rfl

theorem CsrFile.slot_named (c : CsrFile) {a : CsrNum} {n : CsrName} (h : CsrName.ofNumber a = some n) :
    c.slot a = c.get n := by
  simp [CsrFile.slot, h]

theorem CsrFile.setSlot_named (c : CsrFile) {a : CsrNum} {n : CsrName} (h : CsrName.ofNumber a = some n) (v : Word) :
    c.setSlot a v = c.set n v := by
  simp [CsrFile.setSlot, h]

theorem slotsWf_cons (lo : Nat) (b : CsrNum) (w : Word) (l : List (CsrNum × Word)) :
    slotsWf lo ((b, w) :: l) = true ↔
      lo ≤ b.toNat ∧ CsrName.ofNumber b = none ∧ w ≠ 0 ∧ slotsWf (b.toNat + 1) l = true := by
  simp [slotsWf, and_assoc]

theorem slotsWf_mono {lo lo' : Nat} (h : lo' ≤ lo) {l : List (CsrNum × Word)} (hl : slotsWf lo l = true) :
    slotsWf lo' l = true := by
  cases l with
  | nil => rfl
  | cons c l =>
    obtain ⟨b, w⟩ := c
    rw [slotsWf_cons] at hl ⊢
    exact ⟨h.trans hl.1, hl.2⟩

theorem slotRead_below {lo : Nat} {l : List (CsrNum × Word)} (hl : slotsWf lo l = true) {a : CsrNum}
    (ha : a.toNat < lo) : slotRead l a = 0 := by
  cases l with
  | nil => rfl
  | cons c l =>
    obtain ⟨b, w⟩ := c
    rw [slotsWf_cons] at hl
    have h1 : ¬ a = b := fun e => by subst e; omega
    have h2 : a < b := BitVec.lt_def.mpr (by omega)
    simp [slotRead, h1, h2]

theorem slotWrite_wf {lo : Nat} {l : List (CsrNum × Word)} (hl : slotsWf lo l = true) {a : CsrNum} {v : Word}
    (ha : lo ≤ a.toNat) (hn : CsrName.ofNumber a = none) : slotsWf lo (slotWrite l a v) = true := by
  induction l generalizing lo with
  | nil => by_cases hv : v = 0#64 <;> simp [slotWrite, slotsWf, hv, ha, hn]
  | cons c l ih =>
    obtain ⟨b, w⟩ := c
    have hl' := hl
    rw [slotsWf_cons] at hl
    obtain ⟨h1, h2, h3, h4⟩ := hl
    by_cases hlt : a < b
    · have hlt' := BitVec.lt_def.mp hlt
      by_cases hv : v = 0
      · simpa [slotWrite, hlt, hv] using hl'
      · rw [slotWrite, if_pos hlt, if_neg hv, slotsWf_cons, slotsWf_cons]
        exact ⟨ha, hn, hv, by omega, h2, h3, h4⟩
    · by_cases heq : a = b
      · subst heq
        by_cases hv : v = 0
        · simpa [slotWrite, hv] using slotsWf_mono (by omega) h4
        · rw [slotWrite, if_neg hlt, if_pos rfl, if_neg hv, slotsWf_cons]
          exact ⟨h1, h2, hv, h4⟩
      · have hne : b.toNat ≠ a.toNat := fun e => heq (BitVec.eq_of_toNat_eq e.symm)
        have hge : ¬ a.toNat < b.toNat := fun e => hlt (BitVec.lt_def.mpr e)
        simp only [slotWrite, hlt, heq, if_false, slotsWf_cons]
        exact ⟨h1, h2, h3, ih h4 (by omega)⟩

theorem slotRead_slotWrite {lo : Nat} {l : List (CsrNum × Word)} (hl : slotsWf lo l = true) (a a' : CsrNum)
    (v : Word) : slotRead (slotWrite l a v) a' = if a' = a then v else slotRead l a' := by
  induction l generalizing lo with
  | nil =>
    by_cases hv : v = 0#64 <;> by_cases h : a' = a <;> simp [slotWrite, slotRead, hv, h]
  | cons c l ih =>
    obtain ⟨b, w⟩ := c
    rw [slotsWf_cons] at hl
    obtain ⟨h1, h2, h3, h4⟩ := hl
    by_cases hlt : a < b
    · have hlt' := BitVec.lt_def.mp hlt
      have hab : ¬ a = b := fun e => by subst e; omega
      by_cases hv : v = 0#64
      · by_cases h : a' = a
        · simp [slotWrite, slotRead, hlt, hv, h, hab]
        · simp [slotWrite, hlt, hv, h]
      · by_cases h : a' = a
        · simp [slotWrite, slotRead, hlt, hv, h]
        · by_cases h' : a' < a
          · have h5 := BitVec.lt_def.mp h'
            have h6 : ¬ a' = b := fun e => by subst e; omega
            have h7 : a' < b := BitVec.lt_def.mpr (by omega)
            simp [slotWrite, slotRead, hlt, hv, h, h', h6, h7]
          · simp [slotWrite, slotRead, hlt, hv, h, h']
    · by_cases heq : a = b
      · subst heq
        by_cases hv : v = 0#64
        · subst hv
          by_cases h : a' = a
          · simp [slotWrite, h, slotRead_below h4 (Nat.lt_succ_self _)]
          · by_cases h' : a' < a
            · have h5 := BitVec.lt_def.mp h'
              simp [slotWrite, slotRead, h, h', slotRead_below h4 (show a'.toNat < a.toNat + 1 by omega)]
            · simp [slotWrite, slotRead, h, h']
        · by_cases h : a' = a <;> simp [slotWrite, slotRead, hv, h]
      · by_cases h : a' = b
        · have h5 : ¬ b = a := fun e => heq e.symm
          simp [slotWrite, slotRead, hlt, heq, h, h5]
        · by_cases h' : a' < b
          · have h5 : ¬ a' = a := fun e => by subst e; exact hlt h'
            simp [slotWrite, slotRead, hlt, heq, h, h', h5]
          · simp [slotWrite, slotRead, hlt, heq, h, h', ih h4]

/-- A raw read after a raw write: all 64 bits of the one slot, every other of the 4096 as before (R74). -/
theorem CsrFile.slot_setSlot {c : CsrFile} (hc : c.wf = true) (a a' : CsrNum) (v : Word) :
    (c.setSlot a v).slot a' = if a' = a then v else c.slot a' := by
  cases ha : CsrName.ofNumber a with
  | some n =>
    cases ha' : CsrName.ofNumber a' with
    | some m =>
      have e : m = n ↔ a' = a := by
        rw [← CsrName.number_ofNumber ha, ← CsrName.number_ofNumber ha']
        exact ⟨fun e => by rw [e], fun e => by simpa [CsrName.ofNumber_number] using congrArg CsrName.ofNumber e⟩
      simp [CsrFile.slot, CsrFile.setSlot, ha, ha', CsrFile.get_set, e]
    | none =>
      have e : ¬ a' = a := fun e => by simp [e, ha] at ha'
      simp [CsrFile.slot, CsrFile.setSlot, ha, ha', e]
  | none =>
    cases ha' : CsrName.ofNumber a' with
    | some m =>
      have e : ¬ a' = a := fun e => by simp [e, ha] at ha'
      have hg : ∀ l, ({ c with others := l } : CsrFile).get m = c.get m := fun l => by cases m <;> rfl
      simp [CsrFile.slot, CsrFile.setSlot, ha, ha', e, hg]
    | none => simp [CsrFile.slot, CsrFile.setSlot, ha, ha', slotRead_slotWrite hc]

theorem CsrFile.setSlot_wf {c : CsrFile} (hc : c.wf = true) (a : CsrNum) (v : Word) : (c.setSlot a v).wf = true := by
  cases ha : CsrName.ofNumber a with
  | some n => simpa [CsrFile.setSlot, ha, CsrFile.wf] using hc
  | none => simpa [CsrFile.setSlot, ha, CsrFile.wf] using slotWrite_wf hc (Nat.zero_le _) ha

theorem CsrFile.zero_wf : CsrFile.zero.wf = true := rfl

/-- After reset every one of the 4096 slots is 0 (R80). -/
theorem CsrFile.zero_slot (a : CsrNum) : CsrFile.zero.slot a = 0 := by
  unfold CsrFile.slot
  split
  · rename_i n _
    cases n <;> rfl
  · rfl

end Sys2Proof.Machine
end

