-- ==== Sys2Proof/Laws/Ops.lean ====
section
/-! SUPPORT. What the shared operations can do, said once: routing, the physical accesses, translation, the data
accesses, trap entry. The provers cite these lemmas instead of unfolding an operation. -/

namespace Sys2Proof

/-! ### Routing (R102) -/

/-- The device that answers is one of those on the tree. -/
theorem Nodes.route_described {ns : Nodes} {dev : Device} {a : Word} (hd : dev.described = true)
    (hn : ns.described = true) : (ns.route dev a).1.described = true := by
  induction ns generalizing dev a with
  | none => exact hd
  | node st sp d sub next ihs ihn =>
    simp only [Nodes.described, Bool.and_eq_true] at hn
    unfold Nodes.route
    split
    · exact ihs hn.1.1 hn.1.2
    · exact ihn hd hn.2

theorem PhysMap.route_described {m : PhysMap} (h : m.described = true) (pa : Word) :
    (m.route pa).1.described = true := by
  simp only [PhysMap.described, Bool.and_eq_true] at h
  exact Nodes.route_described h.1 h.2

namespace Machine

/-! ### Results -/

/-- The state a result leaves, where it leaves one, has the property. -/
def Res.Leaves {α : Type} (P : State → Prop) : Res α → Prop
  | .done _ s => P s
  | .raise _ _ s => P s
  | .fatal _ => True
  | .refuse _ => True

theorem Res.Leaves.bind {α β : Type} {P Q : State → Prop} {x : Res α} {f : α → State → Res β}
    (hx : x.Leaves P) (hr : ∀ s, P s → Q s) (hf : ∀ v s, P s → (f v s).Leaves Q) : (x.bind f).Leaves Q := by
  cases x with
  | done v s => exact hf v s hx
  | raise e t s => exact hr s hx
  | fatal r => trivial
  | refuse r => trivial

theorem Res.Leaves.mono {α : Type} {P Q : State → Prop} {x : Res α} (hx : x.Leaves P) (h : ∀ s, P s → Q s) :
    x.Leaves Q := by
  cases x with
  | done v s => exact h s hx
  | raise e t s => exact h s hx
  | fatal r => trivial
  | refuse r => trivial

/-- How an instruction's result becomes a next state: completed, or the trap entry of the exception it raised. -/
theorem Res.finish_next {x : Res Unit} {t : State} (h : x.finish = .next t) :
    (x = .done () t) ∨ ∃ e tval u, x = .raise e tval u ∧ t = trapEnter u.pc e.cause tval u := by
  cases x with
  | done v s =>
    simp only [Res.finish, Host.Outcome.next.injEq] at h
    exact .inl (by rw [h])
  | raise e tval s =>
    simp only [Res.finish, Host.Outcome.next.injEq] at h
    exact .inr ⟨e, tval, s, rfl, h.symm⟩
  | fatal r => simp [Res.finish] at h
  | refuse r => simp [Res.finish] at h

/-! ### Physical accesses (R103, R104, R108) -/

/-- What an access, or a translation, can change: the bytes of the memory devices, in canonical form still, and the
count of draws. -/
structure MemOnly (s t : State) : Prop where
  eq : t = { s with mem := t.mem, draws := t.draws }
  wf : Memory.wf s.mem = true → Memory.wf t.mem = true

theorem MemOnly.rfl {s : State} : MemOnly s s := ⟨Eq.refl _, id⟩

theorem MemOnly.trans {s t u : State} (h : MemOnly s t) (k : MemOnly t u) : MemOnly s u :=
  ⟨by rw [k.eq, h.eq], fun w => k.wf (h.wf w)⟩

theorem MemOnly.regs {s t : State} (h : MemOnly s t) : t.regs = s.regs := by rw [h.eq]
theorem MemOnly.fregs {s t : State} (h : MemOnly s t) : t.fregs = s.fregs := by rw [h.eq]
theorem MemOnly.pc {s t : State} (h : MemOnly s t) : t.pc = s.pc := by rw [h.eq]
theorem MemOnly.priv {s t : State} (h : MemOnly s t) : t.priv = s.priv := by rw [h.eq]
theorem MemOnly.csr {s t : State} (h : MemOnly s t) : t.csr = s.csr := by rw [h.eq]
theorem MemOnly.resv {s t : State} (h : MemOnly s t) : t.resv = s.resv := by rw [h.eq]
theorem MemOnly.halted {s t : State} (h : MemOnly s t) : t.halted = s.halted := by rw [h.eq]
theorem MemOnly.rom {s t : State} (h : MemOnly s t) : t.rom = s.rom := by rw [h.eq]
theorem MemOnly.plat {s t : State} (h : MemOnly s t) : t.plat = s.plat := by rw [h.eq]
theorem MemOnly.irqInputs {s t : State} (h : MemOnly s t) : t.irqInputs = s.irqInputs := by rw [h.eq]
theorem MemOnly.getX {s t : State} (h : MemOnly s t) (i : RegIdx) : t.getX i = s.getX i :=
  State.getX_congr h.regs i

theorem deviceAccess_leaves (a : DeviceAccess) (s : State) : (deviceAccess a s).Leaves (MemOnly s) :=
  ⟨rfl, fun h => Memory.writeAll_wf h _⟩

theorem physRead_leaves (pa : Word) (n : Nat) (tag : RmwTag) (s : State) :
    (physRead pa n tag s).Leaves (MemOnly s) := by
  unfold physRead
  split
  · split
    · trivial
    · exact MemOnly.rfl
    · exact MemOnly.rfl
    · exact deviceAccess_leaves _ s
  · trivial

theorem physWrite_leaves (pa : Word) (n : Nat) (v : Word) (tag : RmwTag) (s : State) :
    (physWrite pa n v tag s).Leaves (MemOnly s) := by
  unfold physWrite
  split
  · split
    · trivial
    · exact ⟨rfl, fun h => Memory.writeLE_wf h _ _ _⟩
    · exact deviceAccess_leaves _ s
    · exact deviceAccess_leaves _ s
  · trivial

/-- Where the map holds no device the spec leaves undescribed, a read changes nothing. -/
theorem physRead_described {s : State} (h : s.plat.physMap.described = true) (pa : Word) (n : Nat) (tag : RmwTag) :
    (physRead pa n tag s).Leaves (fun t => t = s) := by
  have hr := PhysMap.route_described h pa
  unfold physRead
  split
  · split
    · trivial
    · rfl
    · rfl
    · rename_i k off e
      rw [e] at hr
      exact absurd hr (by simp [Device.described])
  · trivial

/-- A physical read never raises an exception and is never refused. -/
theorem physRead_not_raise (pa : Word) (n : Nat) (tag : RmwTag) (s : State) :
    (∃ v t, physRead pa n tag s = .done v t) ∨ ∃ r, physRead pa n tag s = .fatal r := by
  unfold physRead
  split
  · split
    · exact .inr ⟨_, rfl⟩
    · exact .inl ⟨_, _, rfl⟩
    · exact .inl ⟨_, _, rfl⟩
    · exact .inl ⟨_, _, rfl⟩
  · exact .inr ⟨_, rfl⟩

theorem physWrite_not_raise (pa : Word) (n : Nat) (v : Word) (tag : RmwTag) (s : State) :
    (∃ o t, physWrite pa n v tag s = .done o t) ∨ ∃ r, physWrite pa n v tag s = .fatal r := by
  unfold physWrite
  split
  · split
    · exact .inr ⟨_, rfl⟩
    · exact .inl ⟨_, _, rfl⟩
    · exact .inl ⟨_, _, rfl⟩
    · exact .inl ⟨_, _, rfl⟩
  · exact .inr ⟨_, rfl⟩

/-! ### Translation (R120 to R131) -/

theorem walk_leaves (va : Word) (levels : Nat) (base : Word) (s : State) :
    (walk va levels base s).Leaves (MemOnly s) := by
  induction levels generalizing base s with
  | zero => exact MemOnly.rfl
  | succ n ih =>
    refine Res.Leaves.bind (physRead_leaves _ 8 .none s) (fun _ h => h) fun pte t ht => ?_
    split
    · exact ht
    · split
      · exact ht
      · exact (ih _ t).mono fun _ h => ht.trans h

theorem walk_described (va : Word) (levels : Nat) (base : Word) {s : State}
    (h : s.plat.physMap.described = true) : (walk va levels base s).Leaves (fun t => t = s) := by
  induction levels generalizing base with
  | zero => rfl
  | succ n ih =>
    refine Res.Leaves.bind (physRead_described h _ 8 .none) (fun _ h => h) fun pte t ht => ?_
    subst ht
    split
    · rfl
    · split
      · rfl
      · exact ih _

/-- A walk ends in a physical address, a page fault or a stop; it raises nothing itself. -/
theorem walk_not_raise (va : Word) (levels : Nat) (base : Word) (s : State) :
    (∃ r t, walk va levels base s = .done r t) ∨ ∃ r, walk va levels base s = .fatal r := by
  induction levels generalizing base s with
  | zero => exact .inl ⟨_, _, rfl⟩
  | succ n ih =>
    unfold walk
    rcases physRead_not_raise (pteAddress base va n) 8 .none s with ⟨v, t, h⟩ | ⟨r, h⟩ <;> rw [h]
    · simp only [Res.bind]
      split
      · exact .inl ⟨_, _, rfl⟩
      · split
        · exact .inl ⟨_, _, rfl⟩
        · exact ih _ _
    · exact .inr ⟨_, rfl⟩

theorem translateVa_leaves (acc : AccessType) (va : Word) (s : State) :
    (translateVa acc va s).Leaves (MemOnly s) := by
  unfold translateVa
  split
  · refine Res.Leaves.bind (walk_leaves _ _ _ s) (fun _ h => h) fun r t ht => ?_
    split
    · exact ht
    · exact ht
  · exact MemOnly.rfl

theorem translateVa_described (acc : AccessType) (va : Word) {s : State}
    (h : s.plat.physMap.described = true) : (translateVa acc va s).Leaves (fun t => t = s) := by
  unfold translateVa
  split
  · refine Res.Leaves.bind (walk_described _ _ _ h) (fun _ h => h) fun r t ht => ?_
    split
    · exact ht
    · exact ht
  · rfl

/-- A translation raises nothing but the page fault of its access type, with the address as trap value (R129). -/
theorem translateVa_cases (acc : AccessType) (va : Word) (s : State) :
    (∃ pa t, translateVa acc va s = .done pa t) ∨ (∃ t, translateVa acc va s = .raise acc.pageFault va t) ∨
      ∃ r, translateVa acc va s = .fatal r := by
  unfold translateVa
  split
  · rcases walk_not_raise va 3 (tableBase (satpPpn s.csr.satp)) s with ⟨r, t, h⟩ | ⟨r, h⟩ <;> rw [h]
    · cases r with
      | none => exact .inr (.inl ⟨_, rfl⟩)
      | some pa => exact .inl ⟨_, _, rfl⟩
    · exact .inr (.inr ⟨_, rfl⟩)
  · exact .inl ⟨_, _, rfl⟩

/-- Off in Machine mode and with MODE 0 (R120). -/
theorem translateVa_off (acc : AccessType) (va : Word) {s : State} (h : s.translating = false) :
    translateVa acc va s = .done va s := by
  simp [translateVa, h]

/-! ### Data accesses (R310, R311, R350) -/

theorem dataAddress_leaves (acc : AccessType) (va : Word) (n : Nat) (s : State) :
    (dataAddress acc va n s).Leaves (MemOnly s) := by
  unfold dataAddress
  split
  · exact translateVa_leaves _ _ _
  · exact MemOnly.rfl

theorem dataAddress_described (acc : AccessType) (va : Word) (n : Nat) {s : State}
    (h : s.plat.physMap.described = true) : (dataAddress acc va n s).Leaves (fun t => t = s) := by
  unfold dataAddress
  split
  · exact translateVa_described _ _ h
  · rfl

theorem memRead_leaves (va : Word) (n : Nat) (s : State) : (memRead va n s).Leaves (MemOnly s) :=
  Res.Leaves.bind (dataAddress_leaves _ _ _ s) (fun _ h => h)
    fun _ _ h => (physRead_leaves _ _ _ _).mono fun _ k => h.trans k

theorem memRead_described (va : Word) (n : Nat) {s : State} (h : s.plat.physMap.described = true) :
    (memRead va n s).Leaves (fun t => t = s) :=
  Res.Leaves.bind (dataAddress_described _ _ _ h) (fun _ h => h)
    fun _ _ e => by subst e; exact physRead_described h _ _ _

theorem memWrite_leaves (va : Word) (n : Nat) (v : Word) (s : State) : (memWrite va n v s).Leaves (MemOnly s) :=
  Res.Leaves.bind (dataAddress_leaves _ _ _ s) (fun _ h => h) fun _ _ h =>
    Res.Leaves.bind (physWrite_leaves _ _ _ _ _) (fun _ k => h.trans k) fun _ _ k => h.trans k

theorem memAmo_leaves (va : Word) (n : Nat) (v : Word) (tag : RmwTag) (s : State) :
    (memAmo va n v tag s).Leaves (MemOnly s) :=
  Res.Leaves.bind (dataAddress_leaves _ _ _ s) (fun _ h => h) fun _ _ h =>
    (physWrite_leaves _ _ _ _ _).mono fun _ k => h.trans k

/-- What LR and SC can change besides memory: the reservation (R351). -/
structure MemResv (s t : State) : Prop where
  eq : t = { s with mem := t.mem, draws := t.draws, resv := t.resv }
  wf : Memory.wf s.mem = true → Memory.wf t.mem = true

theorem MemOnly.memResv {s t : State} (h : MemOnly s t) : MemResv s t := ⟨by rw [h.resv]; exact h.eq, h.wf⟩

theorem MemOnly.setResv {s t : State} (h : MemOnly s t) (r : Option Reservation) : MemResv s (t.setResv r) :=
  ⟨by rw [h.eq]; rfl, h.wf⟩

theorem loadReserved_leaves (va : Word) (w : AmoWidth) (s : State) : (loadReserved va w s).Leaves (MemResv s) :=
  Res.Leaves.bind (dataAddress_leaves _ _ _ s) (fun _ h => h.memResv) fun _ _ h =>
    Res.Leaves.bind (physRead_leaves _ _ _ _) (fun _ k => (h.trans k).memResv) fun _ _ k => (h.trans k).setResv _

theorem storeConditional_leaves (va : Word) (w : AmoWidth) (v : Word) (s : State) :
    (storeConditional va w v s).Leaves (MemResv s) :=
  Res.Leaves.bind (dataAddress_leaves _ _ _ s) (fun _ h => h.memResv) fun _ _ h => by
    split
    · exact Res.Leaves.bind (physWrite_leaves _ _ _ _ _) (fun _ k => (h.trans k).memResv)
        fun _ _ k => (h.trans k).setResv _
    · exact h.setResv _

/-! ### CSR operations (R70, R71) -/

/-- A number of class `stored` is that of the register it names. -/
theorem csrClass_stored {l : List CsrNum} {a : CsrNum} {n : CsrName} (h : csrClass l a = .stored n) :
    CsrName.ofNumber a = some n := by
  unfold csrClass at h
  cases hn : CsrName.ofNumber a with
  | none =>
    rw [hn] at h
    repeat' split at h
    all_goals simp_all
  | some m =>
    rw [hn] at h
    split at h <;> first | (split at h <;> cases h <;> rfl) | cases h

/-- Every number of class `computed` is read-only (R66, R73). -/
theorem csrClass_computed {l : List CsrNum} {a : CsrNum} {c : CounterId} (h : csrClass l a = .computed c) :
    csrReadOnly a = true := by
  have hc : counterOfNumber a = some c := by
    unfold csrClass at h
    repeat' split at h
    all_goals simp_all
  unfold counterOfNumber at hc
  split at hc <;> first | rfl | cases hc

/-- A read of a CSR changes nothing but the count of draws. -/
theorem csrRead_leaves (a : CsrNum) (s : State) : (csrRead a s).Leaves (fun t => t = s ∨ t = s.drew) := by
  unfold csrRead
  split
  · trivial
  · trivial
  · exact .inl rfl
  · exact .inl rfl
  · split
    · exact .inl rfl
    · exact .inr rfl
  · split
    · exact .inl rfl
    · exact .inl rfl

/-- A CSR operation raises nothing but Illegal instruction with trap value 0, in the state it started from or past a
counter read (R390). -/
theorem csrUpdate_raise {a : CsrNum} {data : Word} {op : CsrOp} {wr : Bool} {s t : State} {e : Exc} {tval : Word}
    (h : csrUpdate a data op wr s = .raise e tval t) :
    e = .illegalInstruction ∧ tval = 0 ∧ (t = s ∨ t = s.drew) := by
  have hl := csrRead_leaves a s
  have hx : ∀ e tval t, csrRead a s = .raise e tval t → e = .illegalInstruction ∧ tval = 0 := by
    intro e tval t h
    unfold csrRead illegal at h
    repeat' split at h
    all_goals simp_all
  unfold csrUpdate at h
  split at h
  · cases hc : csrRead a s with
    | done v u =>
      rw [hc] at h hl
      simp only [Res.bind] at h
      split at h
      · split at h
        · simp only [illegal, Res.raise.injEq] at h
          obtain ⟨rfl, rfl, rfl⟩ := h
          exact ⟨rfl, rfl, hl⟩
        · simp at h
      · simp at h
    | raise e' t' u =>
      rw [hc] at h hl
      simp only [Res.bind, Res.raise.injEq] at h
      obtain ⟨rfl, rfl, rfl⟩ := h
      exact ⟨(hx _ _ _ hc).1, (hx _ _ _ hc).2, hl⟩
    | fatal r =>
      rw [hc] at h
      simp [Res.bind] at h
    | refuse r =>
      rw [hc] at h
      simp [Res.bind] at h
  · simp at h

/-- What a completed CSR operation leaves: the old value is returned, and where it writes, the one slot holds the new
value. -/
theorem csrUpdate_done {a : CsrNum} {data : Word} {op : CsrOp} {wr : Bool} {s t : State} {old : Word}
    (h : csrUpdate a data op wr s = .done old t) :
    (∃ n, csrClass s.plat.csrFatalSet a = .stored n ∧ old = s.csr.get n ∧
      t = if wr then csrStore a (op.apply old data) s else s) ∨
    (∃ c, csrClass s.plat.csrFatalSet a = .computed c ∧ old = Config.counterRead c s.draws ∧
      t = if wr then csrStore a (op.apply old data) s.drew else s.drew) := by
  unfold csrUpdate at h
  split at h
  · unfold csrRead at h
    cases hc : csrClass s.plat.csrFatalSet a with
    | refused => simp [hc, Res.bind] at h
    | fatal => simp [hc, Res.bind] at h
    | unsupported => simp [hc, Res.bind, illegal] at h
    | unrecognized => simp [hc, Res.bind, illegal] at h
    | computed c =>
      simp only [hc] at h
      split at h
      · simp [Res.bind, illegal] at h
      · simp only [Res.bind] at h
        split at h
        · split at h
          · simp [illegal] at h
          · simp only [Res.done.injEq] at h
            obtain ⟨rfl, rfl⟩ := h
            exact .inr ⟨c, rfl, rfl, by simp [*]⟩
        · simp only [Res.done.injEq] at h
          obtain ⟨rfl, rfl⟩ := h
          exact .inr ⟨c, rfl, rfl, by simp [*]⟩
    | stored n =>
      simp only [hc] at h
      split at h
      · simp [Res.bind, illegal] at h
      · simp only [Res.bind] at h
        split at h
        · split at h
          · simp [illegal] at h
          · simp only [Res.done.injEq] at h
            obtain ⟨rfl, rfl⟩ := h
            exact .inl ⟨n, rfl, rfl, by simp [*]⟩
        · simp only [Res.done.injEq] at h
          obtain ⟨rfl, rfl⟩ := h
          exact .inl ⟨n, rfl, rfl, by simp [*]⟩
  · simp at h

/-! ### Trap entry (R530) and return -/

/-- What a trap entry can change: the CSRs, the privilege level and the pc. -/
theorem trapEnter_eq (epc cause tval : Word) (s : State) :
    trapEnter epc cause tval s =
      { s with
        csr := (trapEnter epc cause tval s).csr
        priv := (trapEnter epc cause tval s).priv
        pc := (trapEnter epc cause tval s).pc } := by
  unfold trapEnter
  split <;> rfl

@[simp] theorem trapEnter_regs (epc cause tval : Word) (s : State) : (trapEnter epc cause tval s).regs = s.regs := by
  rw [trapEnter_eq]
@[simp] theorem trapEnter_fregs (epc cause tval : Word) (s : State) :
    (trapEnter epc cause tval s).fregs = s.fregs := by
  rw [trapEnter_eq]
@[simp] theorem trapEnter_resv (epc cause tval : Word) (s : State) : (trapEnter epc cause tval s).resv = s.resv := by
  rw [trapEnter_eq]
@[simp] theorem trapEnter_halted (epc cause tval : Word) (s : State) :
    (trapEnter epc cause tval s).halted = s.halted := by
  rw [trapEnter_eq]
@[simp] theorem trapEnter_mem (epc cause tval : Word) (s : State) : (trapEnter epc cause tval s).mem = s.mem := by
  rw [trapEnter_eq]
@[simp] theorem trapEnter_rom (epc cause tval : Word) (s : State) : (trapEnter epc cause tval s).rom = s.rom := by
  rw [trapEnter_eq]
@[simp] theorem trapEnter_plat (epc cause tval : Word) (s : State) : (trapEnter epc cause tval s).plat = s.plat := by
  rw [trapEnter_eq]
@[simp] theorem trapEnter_irqInputs (epc cause tval : Word) (s : State) :
    (trapEnter epc cause tval s).irqInputs = s.irqInputs := by
  rw [trapEnter_eq]
@[simp] theorem trapEnter_draws (epc cause tval : Word) (s : State) :
    (trapEnter epc cause tval s).draws = s.draws := by
  rw [trapEnter_eq]
@[simp] theorem trapEnter_getX (epc cause tval : Word) (s : State) (i : RegIdx) :
    (trapEnter epc cause tval s).getX i = s.getX i :=
  State.getX_congr (trapEnter_regs _ _ _ _) i

/-- A trap writes registers the table of R50 names, and no other slot. -/
@[simp] theorem trapEnter_others (epc cause tval : Word) (s : State) :
    (trapEnter epc cause tval s).csr.others = s.csr.others := by
  unfold trapEnter
  split <;> rfl

/-- A trap lands in Supervisor or in Machine mode, never in User mode (R502). -/
theorem trapEnter_priv (epc cause tval : Word) (s : State) :
    (trapEnter epc cause tval s).priv = if s.trapsToSupervisor cause then .supervisor else .machine := by
  unfold trapEnter
  split <;> rfl

/-- The new pc is the whole vector of the target mode (R531). -/
theorem trapEnter_pc (epc cause tval : Word) (s : State) :
    (trapEnter epc cause tval s).pc = if s.trapsToSupervisor cause then s.csr.stvec else s.csr.mtvec := by
  unfold trapEnter
  split <;> rfl

/-! ### The interrupt check (R522) -/

/-- What the interrupt check can change: the inputs it sampled, the count of draws, and by a trap entry the CSRs, the
privilege level and the pc. -/
theorem handleInterrupt_eq (s : State) :
    handleInterrupt s =
      { s with
        csr := (handleInterrupt s).csr
        priv := (handleInterrupt s).priv
        pc := (handleInterrupt s).pc
        irqInputs := (handleInterrupt s).irqInputs
        draws := (handleInterrupt s).draws } := by
  have hp : ∀ s : State, (pollInputs s).2 =
      { s with irqInputs := (pollInputs s).2.irqInputs, draws := (pollInputs s).2.draws } := by
    intro s
    unfold pollInputs
    split <;> rfl
  have ht : ∀ c (t : State), takeInterrupt c t =
      { t with csr := (takeInterrupt c t).csr, priv := (takeInterrupt c t).priv, pc := (takeInterrupt c t).pc } := by
    intro c t
    unfold takeInterrupt
    split <;> (rw [trapEnter_eq]; rfl)
  unfold handleInterrupt
  simp only []
  split
  · rw [ht, hp]
  · split
    · rw [ht, hp]
    · rw [hp]

@[simp] theorem handleInterrupt_others (s : State) : (handleInterrupt s).csr.others = s.csr.others := by
  have hp : (pollInputs s).2.csr.others = s.csr.others := by
    unfold pollInputs
    split <;> rfl
  have ht : ∀ c (t : State), (takeInterrupt c t).csr.others = t.csr.others := by
    intro c t
    unfold takeInterrupt
    split <;> simp
  unfold handleInterrupt
  simp only []
  split
  · rw [ht, hp]
  · split
    · rw [ht, hp]
    · exact hp

@[simp] theorem handleInterrupt_regs (s : State) : (handleInterrupt s).regs = s.regs := by rw [handleInterrupt_eq]
@[simp] theorem handleInterrupt_fregs (s : State) : (handleInterrupt s).fregs = s.fregs := by rw [handleInterrupt_eq]
@[simp] theorem handleInterrupt_resv (s : State) : (handleInterrupt s).resv = s.resv := by rw [handleInterrupt_eq]
@[simp] theorem handleInterrupt_halted (s : State) : (handleInterrupt s).halted = s.halted := by
  rw [handleInterrupt_eq]
@[simp] theorem handleInterrupt_mem (s : State) : (handleInterrupt s).mem = s.mem := by rw [handleInterrupt_eq]
@[simp] theorem handleInterrupt_rom (s : State) : (handleInterrupt s).rom = s.rom := by rw [handleInterrupt_eq]
@[simp] theorem handleInterrupt_plat (s : State) : (handleInterrupt s).plat = s.plat := by rw [handleInterrupt_eq]
@[simp] theorem handleInterrupt_getX (s : State) (i : RegIdx) : (handleInterrupt s).getX i = s.getX i :=
  State.getX_congr (handleInterrupt_regs s) i

end Machine

end Sys2Proof
end

