-- ==== Sys2Proof/Laws/Shapes.lean ====
section
/-! SUPPORT. How an instruction of each shape with a memory access or a CSR access can end in a next state, said once
(R503, R505): it completes, or it takes a trap with its own pc as saved pc. -/

namespace Sys2Proof.Machine

/-- The trap entry of an exception raised by an instruction of `s`, from a state `u` in which at most a device has acted
(R505). Where the map holds no device the spec leaves undescribed, `u` is `s`. -/
def Trapped (s t : State) : Prop :=
  ∃ (e : Exc) (tval : Word) (u : State), MemOnly s u ∧ (s.plat.physMap.described = true → u = s) ∧
    t = trapEnter s.pc e.cause tval u

theorem Trapped.of {s u : State} (e : Exc) (tval : Word) (h : MemOnly s u)
    (hd : s.plat.physMap.described = true → u = s) : Trapped s (trapEnter u.pc e.cause tval u) :=
  ⟨e, tval, u, h, hd, by rw [h.pc]⟩

/-- A result whose exceptions are all raised before anything but a device has acted: what it ends in after `finish`. -/
theorem finish_cases {α : Type} {x : Res α} {f : α → State → State} {s t : State}
    (hr : ∀ e tval u, x = .raise e tval u → MemOnly s u ∧ (s.plat.physMap.described = true → u = s))
    (h : (x.bind fun v u => .done () (f v u)).finish = .next t) :
    (∃ v u, x = .done v u ∧ t = f v u) ∨ Trapped s t := by
  cases x with
  | done v u =>
    simp only [Res.bind, Res.finish, Host.Outcome.next.injEq] at h
    exact .inl ⟨v, u, rfl, h.symm⟩
  | raise e tval u =>
    simp only [Res.bind, Res.finish, Host.Outcome.next.injEq] at h
    obtain ⟨a, b⟩ := hr e tval u rfl
    exact .inr (h ▸ .of e tval a b)
  | fatal r => simp [Res.bind, Res.finish] at h
  | refuse r => simp [Res.bind, Res.finish] at h

/-- A data access raises nothing after its translation. -/
theorem dataAddress_bind_raise {α : Type} {acc : AccessType} {va : Word} {n : Nat} {s u : State} {e : Exc}
    {tval : Word} {f : Word → State → Res α} (hf : ∀ pa s e tval u, f pa s ≠ .raise e tval u)
    (h : (dataAddress acc va n s).bind f = .raise e tval u) :
    MemOnly s u ∧ (s.plat.physMap.described = true → u = s) := by
  have hl := dataAddress_leaves acc va n s
  have hd := fun k => dataAddress_described acc va n (s := s) k
  cases hx : dataAddress acc va n s with
  | done v w =>
    rw [hx] at h
    exact absurd h (hf _ _ _ _ _)
  | raise e' t' w =>
    rw [hx] at h hl hd
    simp only [Res.bind, Res.raise.injEq] at h
    obtain ⟨-, -, rfl⟩ := h
    exact ⟨hl, hd⟩
  | fatal r =>
    rw [hx] at h
    simp [Res.bind] at h
  | refuse r =>
    rw [hx] at h
    simp [Res.bind] at h

theorem physRead_ne_raise (pa : Word) (n : Nat) (tag : RmwTag) (s : State) (e : Exc) (tval : Word) (u : State) :
    physRead pa n tag s ≠ .raise e tval u := by
  rcases physRead_not_raise pa n tag s with ⟨v, t, h⟩ | ⟨r, h⟩ <;> simp [h]

theorem physWrite_ne_raise (pa : Word) (n : Nat) (v : Word) (tag : RmwTag) (s : State) (e : Exc) (tval : Word)
    (u : State) : physWrite pa n v tag s ≠ .raise e tval u := by
  rcases physWrite_not_raise pa n v tag s with ⟨o, t, h⟩ | ⟨r, h⟩ <;> simp [h]

theorem load_next {ilen : Word} {n : Nat} {ext : Word → Word} {rd : RegIdx} {va : Word} {s t : State}
    (h : load ilen n ext rd va s = .next t) :
    (∃ v u, MemOnly s u ∧ (s.plat.physMap.described = true → u = s) ∧ t = (u.setX rd (ext v)).setPc (s.pc + ilen)) ∨
      Trapped s t := by
  have hl := memRead_leaves va n s
  have hd := fun k => memRead_described va n (s := s) k
  refine (finish_cases ?_ h).imp ?_ id
  · exact fun e tval u hx => dataAddress_bind_raise (fun _ _ _ _ _ => physRead_ne_raise _ _ _ _ _ _ _) hx
  · rintro ⟨v, u, hx, rfl⟩
    rw [hx] at hl hd
    exact ⟨v, u, hl, hd, by rw [← MemOnly.pc hl]; simp [State.advance]⟩

theorem store_next {ilen : Word} {n : Nat} {va v : Word} {s t : State} (h : store ilen n va v s = .next t) :
    (∃ u, MemOnly s u ∧ t = u.setPc (s.pc + ilen)) ∨ Trapped s t := by
  have hl := memWrite_leaves va n v s
  refine (finish_cases ?_ h).imp ?_ id
  · refine fun e tval u hx => dataAddress_bind_raise (fun pa w e' t' u' hy => ?_) hx
    rcases physWrite_not_raise pa n v .none w with ⟨o, z, k⟩ | ⟨r, k⟩ <;> simp [k, Res.bind] at hy
  · rintro ⟨w, u, hx, rfl⟩
    rw [hx] at hl
    exact ⟨u, hl, by rw [← MemOnly.pc hl]; rfl⟩

theorem amo_next {w : AmoWidth} {tag : RmwTag} {rd : RegIdx} {va v : Word} {s t : State}
    (h : amo w tag rd va v s = .next t) :
    (∃ x u, MemOnly s u ∧ t = (u.setX rd x).setPc (s.pc + ilen4)) ∨ Trapped s t := by
  have hl := memAmo_leaves va w.bytes v tag s
  refine (finish_cases ?_ h).imp ?_ id
  · exact fun e tval u hx => dataAddress_bind_raise (fun _ _ _ _ _ => physWrite_ne_raise _ _ _ _ _ _ _ _) hx
  · rintro ⟨x, u, hx, rfl⟩
    rw [hx] at hl
    exact ⟨sextBytes w.bytes x, u, hl, by rw [← MemOnly.pc hl]; simp [State.advance]⟩

/-- A completed LR holds a reservation (R351 to R353). -/
theorem loadReserve_next {w : AmoWidth} {rd : RegIdx} {va : Word} {s t : State}
    (h : loadReserve w rd va s = .next t) :
    (∃ x pa u, MemOnly s u ∧ (s.plat.physMap.described = true → u = s) ∧
      t = ((u.setResv (some ⟨pa, w⟩)).setX rd x).setPc (s.pc + ilen4)) ∨ Trapped s t := by
  refine (finish_cases ?_ h).imp ?_ id
  · refine fun e tval u hx => dataAddress_bind_raise (fun pa z e' t' u' hy => ?_) hx
    rcases physRead_not_raise pa w.bytes .lr z with ⟨o, y, k⟩ | ⟨r, k⟩ <;> simp [k, Res.bind] at hy
  · rintro ⟨x, u, hx, rfl⟩
    have hl := dataAddress_leaves .load va w.bytes s
    have hd := fun k => dataAddress_described .load va w.bytes (s := s) k
    unfold loadReserved at hx
    cases ha : dataAddress .load va w.bytes s with
    | done pa z =>
      rw [ha] at hx hl hd
      have kl := physRead_leaves pa w.bytes .lr z
      rcases physRead_not_raise pa w.bytes .lr z with ⟨o, y, k⟩ | ⟨r, k⟩
      · rw [k] at kl
        simp only [Res.bind, k, Res.done.injEq] at hx
        obtain ⟨-, rfl⟩ := hx
        have hm := MemOnly.trans hl kl
        refine ⟨sextBytes w.bytes x, pa, y, hm, fun q => ?_, ?_⟩
        · have hz : z = s := hd q
          subst hz
          have kd := physRead_described q pa w.bytes .lr
          rw [k] at kd
          exact kd
        · rw [← hm.pc]
          simp [State.advance]
      · simp [Res.bind, k] at hx
    | raise e tval z => simp [ha, Res.bind] at hx
    | fatal r => simp [ha, Res.bind] at hx
    | refuse r => simp [ha, Res.bind] at hx

/-- A completed SC holds no reservation (R351, R354, R355). -/
theorem storeCond_next {w : AmoWidth} {rd : RegIdx} {va v : Word} {s t : State}
    (h : storeCond w rd va v s = .next t) :
    (∃ x u, MemOnly s u ∧ t = ((u.setResv none).setX rd x).setPc (s.pc + ilen4)) ∨ Trapped s t := by
  refine (finish_cases ?_ h).imp ?_ id
  · refine fun e tval u hx => dataAddress_bind_raise (fun pa z e' t' u' hy => ?_) hx
    split at hy
    · rcases physWrite_not_raise pa w.bytes v .sc z with ⟨o, y, k⟩ | ⟨r, k⟩ <;> simp [k, Res.bind] at hy
    · simp at hy
  · rintro ⟨x, u, hx, rfl⟩
    have hl := dataAddress_leaves .store va w.bytes s
    unfold storeConditional at hx
    cases ha : dataAddress .store va w.bytes s with
    | done pa z =>
      rw [ha] at hx hl
      simp only [Res.bind] at hx
      split at hx
      · have kl := physWrite_leaves pa w.bytes v .sc z
        rcases physWrite_not_raise pa w.bytes v .sc z with ⟨o, y, k⟩ | ⟨r, k⟩
        · rw [k] at kl
          simp only [k, Res.done.injEq] at hx
          obtain ⟨-, rfl⟩ := hx
          have hm := MemOnly.trans hl kl
          exact ⟨x, y, hm, by rw [← hm.pc]; simp [State.advance]⟩
        · simp [k] at hx
      · simp only [Res.done.injEq] at hx
        obtain ⟨-, rfl⟩ := hx
        exact ⟨x, z, hl, by rw [← MemOnly.pc hl]; simp [State.advance]⟩
    | raise e tval z => simp [ha, Res.bind] at hx
    | fatal r => simp [ha, Res.bind] at hx
    | refuse r => simp [ha, Res.bind] at hx

/-- How a CSR instruction ends in a next state (R70, R71, R390 to R392): it reads, or reads and writes the slot it names,
with the privilege its number asks for; or it takes Illegal instruction with trap value 0. -/
theorem csrAccess_next {a : CsrNum} {data : Word} {op : CsrOp} {wr : Bool} {rd : RegIdx} {s t : State}
    (h : csrAccess a data op wr rd s = .next t) :
    (∃ old u, (u = s ∨ u = s.drew ∨
        ∃ n v, CsrName.ofNumber a = some n ∧ ¬ s.priv.code < csrPrivBits a ∧ u = s.setCsr n v) ∧
      t = (u.setX rd old).setPc (s.pc + ilen4)) ∨
    (∃ u, (u = s ∨ u = s.drew) ∧ t = trapEnter s.pc 2 0 u) := by
  unfold csrAccess at h
  cases hx : csrUpdate a data op wr s with
  | done old u =>
    simp only [hx, Res.bind, Res.finish, Host.Outcome.next.injEq] at h
    subst h
    refine .inl ⟨old, u, ?_⟩
    have key : (u = s ∨ u = s.drew ∨
        ∃ n v, CsrName.ofNumber a = some n ∧ ¬ s.priv.code < csrPrivBits a ∧ u = s.setCsr n v) := by
      unfold csrUpdate csrRead at hx
      split at hx
      · cases hc : csrClass s.plat.csrFatalSet a with
        | refused => simp [hc, Res.bind] at hx
        | fatal => simp [hc, Res.bind] at hx
        | unsupported => simp [hc, Res.bind, illegal] at hx
        | unrecognized => simp [hc, Res.bind, illegal] at hx
        | computed c =>
          have hr := csrClass_computed hc
          simp only [hc] at hx
          split at hx
          · simp [Res.bind, illegal] at hx
          · simp only [Res.bind] at hx
            split at hx
            · simp [illegal] at hx
            · simp only [Res.done.injEq] at hx
              exact .inr (.inl hx.2.symm)
        | stored n =>
          have ho := csrClass_stored hc
          simp only [hc] at hx
          split at hx
          · simp [Res.bind, illegal] at hx
          · rename_i hp
            simp only [Res.bind, csrStore, CsrFile.setSlot_named _ ho] at hx
            repeat' split at hx
            all_goals first
              | (simp [illegal] at hx; done)
              | (simp only [Res.done.injEq] at hx; exact .inr (.inr ⟨n, _, ho, hp, hx.2.symm⟩))
              | (simp only [Res.done.injEq] at hx; exact .inl hx.2.symm)
      · simp at hx
    refine ⟨key, ?_⟩
    have hp : u.pc = s.pc := by
      rcases key with rfl | rfl | ⟨n, v, -, -, rfl⟩ <;> rfl
    rw [← hp]
    simp [State.advance]
  | raise e tval u =>
    simp only [hx, Res.bind, Res.finish, Host.Outcome.next.injEq] at h
    obtain ⟨rfl, rfl, hu⟩ := csrUpdate_raise hx
    refine .inr ⟨u, hu, ?_⟩
    rw [← h]
    rcases hu with rfl | rfl <;> rfl
  | fatal r => simp [hx, Res.bind, Res.finish] at h
  | refuse r => simp [hx, Res.bind, Res.finish] at h

end Sys2Proof.Machine
end

