-- ==== Sys2Proof/Laws/Exec.lean ====
section
/-! SUPPORT. Every way an instruction can end in a next state, said once for all of them (R12, R503, R505): a claim over
all instructions is a case analysis of `Effect`, with no instruction unfolded. -/

namespace Sys2Proof.Machine

open Sys2Proof.Claims

/-- The ways the instruction `i`, run in `s`, leaves the state `t`. -/
inductive Effect (i : Instr) (s t : State) : Prop where
  /-- a register, or nothing, and the pc -/
  | goes (rd : RegIdx) (v pc : Word) (hd : dest i = some rd ∨ (rd = 0 ∧ dest i = none))
      (ht : t = (s.setX rd v).setPc pc)
  /-- a load -/
  | loads (rd : RegIdx) (v pc : Word) (u : State) (hd : dest i = some rd) (hm : MemOnly s u)
      (hq : s.plat.physMap.described = true → u = s) (ht : t = (u.setX rd v).setPc pc)
  /-- a store or an AMO -/
  | writes (rd : RegIdx) (v pc : Word) (u : State) (hd : dest i = some rd ∨ (rd = 0 ∧ dest i = none))
      (hw : writesMemory i = true) (hm : MemOnly s u) (ht : t = (u.setX rd v).setPc pc)
  /-- LR -/
  | reserves (rd : RegIdx) (v pc : Word) (r : Reservation) (u : State) (hd : dest i = some rd)
      (hl : isLoadReserved i = true) (hm : MemOnly s u) (hq : s.plat.physMap.described = true → u = s)
      (ht : t = ((u.setResv (some r)).setX rd v).setPc pc)
  /-- SC -/
  | releases (rd : RegIdx) (v pc : Word) (u : State) (hd : dest i = some rd) (hs : isStoreConditional i = true)
      (hw : writesMemory i = true) (hm : MemOnly s u) (ht : t = ((u.setResv none).setX rd v).setPc pc)
  /-- a CSR instruction that completes -/
  | csr (a : CsrNum) (rd : RegIdx) (v pc : Word) (u : State) (ha : csrOf i = some a) (hd : dest i = some rd)
      (hu : u = s ∨ u = s.drew ∨
        ∃ n w, CsrName.ofNumber a = some n ∧ ¬ s.priv.code < csrPrivBits a ∧ u = s.setCsr n w)
      (ht : t = (u.setX rd v).setPc pc)
  /-- a CSR instruction that takes Illegal instruction -/
  | csrIllegal (u : State) (hu : u = s ∨ u = s.drew) (ht : t = trapEnter s.pc 2 0 u)
  /-- any other exception -/
  | traps (h : Trapped s t)
  | sret (hi : i = .sret) (hp : s.priv ≠ .user) (ht : t = returnFromSupervisor s)
  | mret (p : Priv) (hi : i = .mret) (hp : s.priv = .machine) (ht : t = returnFromMachine p s)

/-- Writing x0 changes nothing (R30). -/
theorem setX_none (s : State) (v : Word) : s.setX (0 : RegIdx) v = s := State.setX_zero s v

namespace Effect

theorem ofGoes {i : Instr} {s t : State} {rd : RegIdx} {v pc : Word}
    (h : (.next ((s.setX rd v).setPc pc) : Host.Outcome State Fault Refusal) = .next t)
    (hd : dest i = some rd ∨ (rd = 0 ∧ dest i = none)) : Effect i s t := by
  simp only [Host.Outcome.next.injEq] at h
  exact .goes rd v pc hd h.symm

theorem ofPc {i : Instr} {s t : State} {pc : Word}
    (h : (.next (s.setPc pc) : Host.Outcome State Fault Refusal) = .next t) (hd : dest i = none) : Effect i s t := by
  simp only [Host.Outcome.next.injEq] at h
  exact .goes 0 0 pc (.inr ⟨rfl, hd⟩) (by rw [setX_none]; exact h.symm)

theorem ofRaise {i : Instr} {s t : State} {e : Exc} {tval : Word}
    (h : (Res.raise e tval s : Res Unit).finish = .next t) : Effect i s t := by
  simp only [Res.finish, Host.Outcome.next.injEq] at h
  exact .traps (h ▸ .of e tval MemOnly.rfl fun _ => rfl)

theorem ofLoad {i : Instr} {ilen : Word} {n : Nat} {ext : Word → Word} {rd : RegIdx} {va : Word} {s t : State}
    (h : load ilen n ext rd va s = .next t) (hd : dest i = some rd) : Effect i s t :=
  (load_next h).elim (fun ⟨v, u, hm, hq, ht⟩ => .loads rd (ext v) _ u hd hm hq ht) .traps

theorem ofStore {i : Instr} {ilen : Word} {n : Nat} {va v : Word} {s t : State} (h : store ilen n va v s = .next t)
    (hd : dest i = none) (hw : writesMemory i = true) : Effect i s t :=
  (store_next h).elim
    (fun ⟨u, hm, ht⟩ => .writes 0 0 _ u (.inr ⟨rfl, hd⟩) hw hm (by rw [setX_none]; exact ht)) .traps

theorem ofAmo {i : Instr} {w : AmoWidth} {tag : RmwTag} {rd : RegIdx} {va v : Word} {s t : State}
    (h : amo w tag rd va v s = .next t) (hd : dest i = some rd) (hw : writesMemory i = true) : Effect i s t :=
  (amo_next h).elim (fun ⟨x, u, hm, ht⟩ => .writes rd x _ u (.inl hd) hw hm ht) .traps

theorem ofLr {i : Instr} {w : AmoWidth} {rd : RegIdx} {va : Word} {s t : State} (h : loadReserve w rd va s = .next t)
    (hd : dest i = some rd) (hl : isLoadReserved i = true) : Effect i s t :=
  (loadReserve_next h).elim (fun ⟨x, _, u, hm, hq, ht⟩ => .reserves rd x _ _ u hd hl hm hq ht) .traps

theorem ofSc {i : Instr} {w : AmoWidth} {rd : RegIdx} {va v : Word} {s t : State} (h : storeCond w rd va v s = .next t)
    (hd : dest i = some rd) (hs : isStoreConditional i = true) (hw : writesMemory i = true) : Effect i s t :=
  (storeCond_next h).elim (fun ⟨x, u, hm, ht⟩ => .releases rd x _ u hd hs hw hm ht) .traps

theorem ofCsr {i : Instr} {a : CsrNum} {data : Word} {op : CsrOp} {wr : Bool} {rd : RegIdx} {s t : State}
    (h : csrAccess a data op wr rd s = .next t) (ha : csrOf i = some a) (hd : dest i = some rd) : Effect i s t :=
  (csrAccess_next h).elim (fun ⟨old, u, hu, ht⟩ => .csr a rd old _ u ha hd hu ht) fun ⟨u, hu, ht⟩ => .csrIllegal u hu ht

theorem ofSret {s t : State} (h : execSret s = .next t) : Effect .sret s t := by
  unfold execSret trapExit at h
  by_cases hp : s.priv = .user
  · rw [if_pos hp] at h
    exact ofRaise h
  · rw [if_neg hp] at h
    simp only [Res.finish, Host.Outcome.next.injEq] at h
    exact .sret rfl hp h.symm

theorem ofMret {s t : State} (h : execMret s = .next t) : Effect .mret s t := by
  simp only [execMret, trapExit] at h
  by_cases hp : s.priv = .machine
  · rw [if_pos hp] at h
    cases hc : Priv.ofCode (mstatusMPP s.csr.mstatus) with
    | some p =>
      simp only [hc, Res.finish, Host.Outcome.next.injEq] at h
      exact .mret p rfl hp h.symm
    | none => simp [hc, Res.finish] at h
  · rw [if_neg hp] at h
    exact ofRaise h

end Effect

/-- An instruction that answers a next state leaves it in one of the ways of `Effect`. -/
theorem exec_next {i : Instr} {s t : State} (h : exec i s = .next t) : Effect i s t :=
  match i with
  | .lui _ _ => .ofGoes h (.inl rfl)
  | .auipc _ _ => .ofGoes h (.inl rfl)
  | .addi _ _ _ => .ofGoes h (.inl rfl)
  | .slti _ _ _ => .ofGoes h (.inl rfl)
  | .sltiu _ _ _ => .ofGoes h (.inl rfl)
  | .xori _ _ _ => .ofGoes h (.inl rfl)
  | .ori _ _ _ => .ofGoes h (.inl rfl)
  | .andi _ _ _ => .ofGoes h (.inl rfl)
  | .slli _ _ _ => .ofGoes h (.inl rfl)
  | .srli _ _ _ => .ofGoes h (.inl rfl)
  | .srai _ _ _ => .ofGoes h (.inl rfl)
  | .addiw _ _ _ => .ofGoes h (.inl rfl)
  | .slliw _ _ _ => .ofGoes h (.inl rfl)
  | .srliw _ _ _ => .ofGoes h (.inl rfl)
  | .sraiw _ _ _ => .ofGoes h (.inl rfl)
  | .add _ _ _ => .ofGoes h (.inl rfl)
  | .sub _ _ _ => .ofGoes h (.inl rfl)
  | .sll _ _ _ => .ofGoes h (.inl rfl)
  | .slt _ _ _ => .ofGoes h (.inl rfl)
  | .sltu _ _ _ => .ofGoes h (.inl rfl)
  | .xor _ _ _ => .ofGoes h (.inl rfl)
  | .srl _ _ _ => .ofGoes h (.inl rfl)
  | .sra _ _ _ => .ofGoes h (.inl rfl)
  | .or _ _ _ => .ofGoes h (.inl rfl)
  | .and _ _ _ => .ofGoes h (.inl rfl)
  | .addw _ _ _ => .ofGoes h (.inl rfl)
  | .subw _ _ _ => .ofGoes h (.inl rfl)
  | .sllw _ _ _ => .ofGoes h (.inl rfl)
  | .srlw _ _ _ => .ofGoes h (.inl rfl)
  | .sraw _ _ _ => .ofGoes h (.inl rfl)
  | .jal _ _ => .ofGoes h (.inl rfl)
  | .jalr _ _ _ => .ofGoes h (.inl rfl)
  | .beq _ _ _ => .ofPc h rfl
  | .bne _ _ _ => .ofPc h rfl
  | .blt _ _ _ => .ofPc h rfl
  | .bge _ _ _ => .ofPc h rfl
  | .bltu _ _ _ => .ofPc h rfl
  | .bgeu _ _ _ => .ofPc h rfl
  | .lb _ _ _ => .ofLoad h rfl
  | .lh _ _ _ => .ofLoad h rfl
  | .lw _ _ _ => .ofLoad h rfl
  | .ld _ _ _ => .ofLoad h rfl
  | .lbu _ _ _ => .ofLoad h rfl
  | .lhu _ _ _ => .ofLoad h rfl
  | .lwu _ _ _ => .ofLoad h rfl
  | .sb _ _ _ => .ofStore h rfl rfl
  | .sh _ _ _ => .ofStore h rfl rfl
  | .sw _ _ _ => .ofStore h rfl rfl
  | .sd _ _ _ => .ofStore h rfl rfl
  | .mul _ _ _ => .ofGoes h (.inl rfl)
  | .mulh _ _ _ => .ofGoes h (.inl rfl)
  | .mulhsu _ _ _ => .ofGoes h (.inl rfl)
  | .mulhu _ _ _ => .ofGoes h (.inl rfl)
  | .mulw _ _ _ => .ofGoes h (.inl rfl)
  | .div _ _ _ => .ofGoes h (.inl rfl)
  | .divu _ _ _ => .ofGoes h (.inl rfl)
  | .rem _ _ _ => .ofGoes h (.inl rfl)
  | .remu _ _ _ => .ofGoes h (.inl rfl)
  | .divw _ _ _ => .ofGoes h (.inl rfl)
  | .divuw _ _ _ => .ofGoes h (.inl rfl)
  | .remw _ _ _ => .ofGoes h (.inl rfl)
  | .remuw _ _ _ => .ofGoes h (.inl rfl)
  | .lrW _ _ _ _ => .ofLr h rfl rfl
  | .lrD _ _ _ _ => .ofLr h rfl rfl
  | .scW _ _ _ _ _ => .ofSc h rfl rfl rfl
  | .scD _ _ _ _ _ => .ofSc h rfl rfl rfl
  | .amoswapW _ _ _ _ _ => .ofAmo h rfl rfl
  | .amoaddW _ _ _ _ _ => .ofAmo h rfl rfl
  | .amoxorW _ _ _ _ _ => .ofAmo h rfl rfl
  | .amoandW _ _ _ _ _ => .ofAmo h rfl rfl
  | .amoorW _ _ _ _ _ => .ofAmo h rfl rfl
  | .amominW _ _ _ _ _ => .ofAmo h rfl rfl
  | .amomaxW _ _ _ _ _ => .ofAmo h rfl rfl
  | .amominuW _ _ _ _ _ => .ofAmo h rfl rfl
  | .amomaxuW _ _ _ _ _ => .ofAmo h rfl rfl
  | .amoswapD _ _ _ _ _ => .ofAmo h rfl rfl
  | .amoaddD _ _ _ _ _ => .ofAmo h rfl rfl
  | .amoxorD _ _ _ _ _ => .ofAmo h rfl rfl
  | .amoandD _ _ _ _ _ => .ofAmo h rfl rfl
  | .amoorD _ _ _ _ _ => .ofAmo h rfl rfl
  | .amominD _ _ _ _ _ => .ofAmo h rfl rfl
  | .amomaxD _ _ _ _ _ => .ofAmo h rfl rfl
  | .amominuD _ _ _ _ _ => .ofAmo h rfl rfl
  | .amomaxuD _ _ _ _ _ => .ofAmo h rfl rfl
  | .csrrw _ _ _ => .ofCsr h rfl rfl
  | .csrrs _ _ _ => .ofCsr h rfl rfl
  | .csrrc _ _ _ => .ofCsr h rfl rfl
  | .csrrwi _ _ _ => .ofCsr h rfl rfl
  | .csrrsi _ _ _ => .ofCsr h rfl rfl
  | .csrrci _ _ _ => .ofCsr h rfl rfl
  | .ecall => .ofRaise h
  | .ebreak => .ofRaise h
  | .uret => nomatch h
  | .sret => .ofSret h
  | .mret => .ofMret h
  | .wfi => .ofPc h rfl
  | .sfenceVma _ _ => .ofPc h rfl
  | .fence _ _ _ _ _ => .ofPc h rfl
  | .fenceI _ _ _ => .ofPc h rfl
  | .loadFp _ => nomatch h
  | .storeFp _ => nomatch h
  | .fmadd _ => nomatch h
  | .fmsub _ => nomatch h
  | .fnmsub _ => nomatch h
  | .fnmadd _ => nomatch h
  | .opFp _ => nomatch h
  | .cIllegal => nomatch h
  | .cAddi4spn _ _ => .ofGoes h (.inl rfl)
  | .cFld _ => nomatch h
  | .cLw _ _ _ => .ofLoad h rfl
  | .cLd _ _ _ => .ofLoad h rfl
  | .cReservedQ0 _ => nomatch h
  | .cFsd _ => nomatch h
  | .cSw _ _ _ => .ofStore h rfl rfl
  | .cSd _ _ _ => .ofStore h rfl rfl
  | .cNop _ => .ofGoes h (.inr ⟨rfl, rfl⟩)
  | .cAddi _ _ => .ofGoes h (.inl rfl)
  | .cAddiw _ _ => .ofGoes h (.inl rfl)
  | .cLi _ _ => .ofGoes h (.inl rfl)
  | .cAddi16sp _ => .ofGoes h (.inl rfl)
  | .cLui _ _ => .ofGoes h (.inl rfl)
  | .cSrli _ _ => .ofGoes h (.inl rfl)
  | .cSrai _ _ => .ofGoes h (.inl rfl)
  | .cAndi _ _ => .ofGoes h (.inl rfl)
  | .cSub _ _ => .ofGoes h (.inl rfl)
  | .cXor _ _ => .ofGoes h (.inl rfl)
  | .cOr _ _ => .ofGoes h (.inl rfl)
  | .cAnd _ _ => .ofGoes h (.inl rfl)
  | .cSubw _ _ => .ofGoes h (.inl rfl)
  | .cAddw _ _ => .ofGoes h (.inl rfl)
  | .cReservedQ1 _ _ _ => nomatch h
  | .cJ _ => .ofGoes h (.inr ⟨rfl, rfl⟩)
  | .cBeqz _ _ => .ofPc h rfl
  | .cBnez _ _ => .ofPc h rfl
  | .cSlli _ _ => .ofGoes h (.inl rfl)
  | .cFldsp _ => nomatch h
  | .cLwsp _ _ => .ofLoad h rfl
  | .cLdsp _ _ => .ofLoad h rfl
  | .cFsdsp _ => nomatch h
  | .cSwsp _ _ => .ofStore h rfl rfl
  | .cSdsp _ _ => .ofStore h rfl rfl
  | .cEbreak => .ofRaise h
  | .cJalr _ => .ofGoes h (.inl rfl)
  | .cJr _ => .ofGoes h (.inr ⟨rfl, rfl⟩)
  | .cMv _ _ => .ofGoes h (.inl rfl)
  | .cAdd _ _ => .ofGoes h (.inl rfl)

end Sys2Proof.Machine
end

