-- ==== Sys2Proof/Laws/PerInstr.lean ====
section
/-! SUPPORT. One lemma per instruction: decoding its encoding gives it back (R170 to R216). -/

open Sys2Proof

/-- Decoding the encoding of a well-formed instruction gives it back. -/
def Sys2Proof.Laws.RoundTrip.Statement (i : Instr) : Prop := WellFormed i → decode (encode i) = .ok i

/-- A joined 32-bit word is decoded by its fields. -/
theorem Sys2Proof.Laws.decode_full_join (f : Fields32) : decode (.full f.join) = decodeFields32 f :=
  congrArg decodeFields32 (Fields32.split_join f)

/-- A joined parcel is decoded by its fields. -/
theorem Sys2Proof.Laws.decode_half_join (f : Fields16) : decode (.half f.join) = decodeFields16 f :=
  congrArg decodeFields16 (Fields16.split_join f)

theorem Sys2Proof.Laws.RoundTrip.lui (rd : RegIdx) (imm : BitVec 20) : Sys2Proof.Laws.RoundTrip.Statement (.lui rd imm) := by
  intro _
  refine (Sys2Proof.Laws.decode_full_join _).trans ?_
  show Except.ok (Instr.lui rd (Fields32.typeU 0x37 rd imm).immU) = _
  rw [Fields32.immU_typeU]

theorem Sys2Proof.Laws.RoundTrip.auipc (rd : RegIdx) (imm : BitVec 20) : Sys2Proof.Laws.RoundTrip.Statement (.auipc rd imm) := by
  intro _
  refine (Sys2Proof.Laws.decode_full_join _).trans ?_
  show Except.ok (Instr.auipc rd (Fields32.typeU 0x17 rd imm).immU) = _
  rw [Fields32.immU_typeU]

theorem Sys2Proof.Laws.RoundTrip.addi (rd : RegIdx) (rs1 : RegIdx) (imm : BitVec 12) : Sys2Proof.Laws.RoundTrip.Statement (.addi rd rs1 imm) := by
  intro _
  refine (Sys2Proof.Laws.decode_full_join _).trans ?_
  show Except.ok (Instr.addi rd rs1 (Fields32.typeI 0x13 0 rd rs1 imm).immI) = _
  rw [Fields32.immI_typeI]

theorem Sys2Proof.Laws.RoundTrip.slti (rd : RegIdx) (rs1 : RegIdx) (imm : BitVec 12) : Sys2Proof.Laws.RoundTrip.Statement (.slti rd rs1 imm) := by
  intro _
  refine (Sys2Proof.Laws.decode_full_join _).trans ?_
  show Except.ok (Instr.slti rd rs1 (Fields32.typeI 0x13 2 rd rs1 imm).immI) = _
  rw [Fields32.immI_typeI]

theorem Sys2Proof.Laws.RoundTrip.sltiu (rd : RegIdx) (rs1 : RegIdx) (imm : BitVec 12) : Sys2Proof.Laws.RoundTrip.Statement (.sltiu rd rs1 imm) := by
  intro _
  refine (Sys2Proof.Laws.decode_full_join _).trans ?_
  show Except.ok (Instr.sltiu rd rs1 (Fields32.typeI 0x13 3 rd rs1 imm).immI) = _
  rw [Fields32.immI_typeI]

theorem Sys2Proof.Laws.RoundTrip.xori (rd : RegIdx) (rs1 : RegIdx) (imm : BitVec 12) : Sys2Proof.Laws.RoundTrip.Statement (.xori rd rs1 imm) := by
  intro _
  refine (Sys2Proof.Laws.decode_full_join _).trans ?_
  show Except.ok (Instr.xori rd rs1 (Fields32.typeI 0x13 4 rd rs1 imm).immI) = _
  rw [Fields32.immI_typeI]

theorem Sys2Proof.Laws.RoundTrip.ori (rd : RegIdx) (rs1 : RegIdx) (imm : BitVec 12) : Sys2Proof.Laws.RoundTrip.Statement (.ori rd rs1 imm) := by
  intro _
  refine (Sys2Proof.Laws.decode_full_join _).trans ?_
  show Except.ok (Instr.ori rd rs1 (Fields32.typeI 0x13 6 rd rs1 imm).immI) = _
  rw [Fields32.immI_typeI]

theorem Sys2Proof.Laws.RoundTrip.andi (rd : RegIdx) (rs1 : RegIdx) (imm : BitVec 12) : Sys2Proof.Laws.RoundTrip.Statement (.andi rd rs1 imm) := by
  intro _
  refine (Sys2Proof.Laws.decode_full_join _).trans ?_
  show Except.ok (Instr.andi rd rs1 (Fields32.typeI 0x13 7 rd rs1 imm).immI) = _
  rw [Fields32.immI_typeI]

theorem Sys2Proof.Laws.RoundTrip.slli (rd : RegIdx) (rs1 : RegIdx) (shamt : BitVec 6) : Sys2Proof.Laws.RoundTrip.Statement (.slli rd rs1 shamt) := by
  intro _
  refine (Sys2Proof.Laws.decode_full_join _).trans ?_
  show decodeOpImm (Fields32.typeShift64 0x13 1 0x00 rd rs1 shamt) = _
  simp only [decodeOpImm, show (Fields32.typeShift64 0x13 1 0x00 rd rs1 shamt).funct3 = 1 from rfl, Fields32.funct6_typeShift64, Fields32.shamt6_typeShift64]
  rfl

theorem Sys2Proof.Laws.RoundTrip.srli (rd : RegIdx) (rs1 : RegIdx) (shamt : BitVec 6) : Sys2Proof.Laws.RoundTrip.Statement (.srli rd rs1 shamt) := by
  intro _
  refine (Sys2Proof.Laws.decode_full_join _).trans ?_
  show decodeOpImm (Fields32.typeShift64 0x13 5 0x00 rd rs1 shamt) = _
  simp only [decodeOpImm, show (Fields32.typeShift64 0x13 5 0x00 rd rs1 shamt).funct3 = 5 from rfl, Fields32.funct6_typeShift64, Fields32.shamt6_typeShift64]
  rfl

theorem Sys2Proof.Laws.RoundTrip.srai (rd : RegIdx) (rs1 : RegIdx) (shamt : BitVec 6) : Sys2Proof.Laws.RoundTrip.Statement (.srai rd rs1 shamt) := by
  intro _
  refine (Sys2Proof.Laws.decode_full_join _).trans ?_
  show decodeOpImm (Fields32.typeShift64 0x13 5 0x10 rd rs1 shamt) = _
  simp only [decodeOpImm, show (Fields32.typeShift64 0x13 5 0x10 rd rs1 shamt).funct3 = 5 from rfl, Fields32.funct6_typeShift64, Fields32.shamt6_typeShift64]
  rfl

theorem Sys2Proof.Laws.RoundTrip.addiw (rd : RegIdx) (rs1 : RegIdx) (imm : BitVec 12) : Sys2Proof.Laws.RoundTrip.Statement (.addiw rd rs1 imm) := by
  intro _
  refine (Sys2Proof.Laws.decode_full_join _).trans ?_
  show Except.ok (Instr.addiw rd rs1 (Fields32.typeI 0x1B 0 rd rs1 imm).immI) = _
  rw [Fields32.immI_typeI]

theorem Sys2Proof.Laws.RoundTrip.slliw (rd : RegIdx) (rs1 : RegIdx) (shamt : BitVec 5) : Sys2Proof.Laws.RoundTrip.Statement (.slliw rd rs1 shamt) := by
  intro _
  refine (Sys2Proof.Laws.decode_full_join _).trans ?_
  rfl

theorem Sys2Proof.Laws.RoundTrip.srliw (rd : RegIdx) (rs1 : RegIdx) (shamt : BitVec 5) : Sys2Proof.Laws.RoundTrip.Statement (.srliw rd rs1 shamt) := by
  intro _
  refine (Sys2Proof.Laws.decode_full_join _).trans ?_
  rfl

theorem Sys2Proof.Laws.RoundTrip.sraiw (rd : RegIdx) (rs1 : RegIdx) (shamt : BitVec 5) : Sys2Proof.Laws.RoundTrip.Statement (.sraiw rd rs1 shamt) := by
  intro _
  refine (Sys2Proof.Laws.decode_full_join _).trans ?_
  rfl

theorem Sys2Proof.Laws.RoundTrip.add (rd : RegIdx) (rs1 : RegIdx) (rs2 : RegIdx) : Sys2Proof.Laws.RoundTrip.Statement (.add rd rs1 rs2) := by
  intro _
  refine (Sys2Proof.Laws.decode_full_join _).trans ?_
  rfl

theorem Sys2Proof.Laws.RoundTrip.sub (rd : RegIdx) (rs1 : RegIdx) (rs2 : RegIdx) : Sys2Proof.Laws.RoundTrip.Statement (.sub rd rs1 rs2) := by
  intro _
  refine (Sys2Proof.Laws.decode_full_join _).trans ?_
  rfl

theorem Sys2Proof.Laws.RoundTrip.sll (rd : RegIdx) (rs1 : RegIdx) (rs2 : RegIdx) : Sys2Proof.Laws.RoundTrip.Statement (.sll rd rs1 rs2) := by
  intro _
  refine (Sys2Proof.Laws.decode_full_join _).trans ?_
  rfl

theorem Sys2Proof.Laws.RoundTrip.slt (rd : RegIdx) (rs1 : RegIdx) (rs2 : RegIdx) : Sys2Proof.Laws.RoundTrip.Statement (.slt rd rs1 rs2) := by
  intro _
  refine (Sys2Proof.Laws.decode_full_join _).trans ?_
  rfl

theorem Sys2Proof.Laws.RoundTrip.sltu (rd : RegIdx) (rs1 : RegIdx) (rs2 : RegIdx) : Sys2Proof.Laws.RoundTrip.Statement (.sltu rd rs1 rs2) := by
  intro _
  refine (Sys2Proof.Laws.decode_full_join _).trans ?_
  rfl

theorem Sys2Proof.Laws.RoundTrip.xor (rd : RegIdx) (rs1 : RegIdx) (rs2 : RegIdx) : Sys2Proof.Laws.RoundTrip.Statement (.xor rd rs1 rs2) := by
  intro _
  refine (Sys2Proof.Laws.decode_full_join _).trans ?_
  rfl

theorem Sys2Proof.Laws.RoundTrip.srl (rd : RegIdx) (rs1 : RegIdx) (rs2 : RegIdx) : Sys2Proof.Laws.RoundTrip.Statement (.srl rd rs1 rs2) := by
  intro _
  refine (Sys2Proof.Laws.decode_full_join _).trans ?_
  rfl

theorem Sys2Proof.Laws.RoundTrip.sra (rd : RegIdx) (rs1 : RegIdx) (rs2 : RegIdx) : Sys2Proof.Laws.RoundTrip.Statement (.sra rd rs1 rs2) := by
  intro _
  refine (Sys2Proof.Laws.decode_full_join _).trans ?_
  rfl

theorem Sys2Proof.Laws.RoundTrip.or (rd : RegIdx) (rs1 : RegIdx) (rs2 : RegIdx) : Sys2Proof.Laws.RoundTrip.Statement (.or rd rs1 rs2) := by
  intro _
  refine (Sys2Proof.Laws.decode_full_join _).trans ?_
  rfl

theorem Sys2Proof.Laws.RoundTrip.and (rd : RegIdx) (rs1 : RegIdx) (rs2 : RegIdx) : Sys2Proof.Laws.RoundTrip.Statement (.and rd rs1 rs2) := by
  intro _
  refine (Sys2Proof.Laws.decode_full_join _).trans ?_
  rfl

theorem Sys2Proof.Laws.RoundTrip.addw (rd : RegIdx) (rs1 : RegIdx) (rs2 : RegIdx) : Sys2Proof.Laws.RoundTrip.Statement (.addw rd rs1 rs2) := by
  intro _
  refine (Sys2Proof.Laws.decode_full_join _).trans ?_
  rfl

theorem Sys2Proof.Laws.RoundTrip.subw (rd : RegIdx) (rs1 : RegIdx) (rs2 : RegIdx) : Sys2Proof.Laws.RoundTrip.Statement (.subw rd rs1 rs2) := by
  intro _
  refine (Sys2Proof.Laws.decode_full_join _).trans ?_
  rfl

theorem Sys2Proof.Laws.RoundTrip.sllw (rd : RegIdx) (rs1 : RegIdx) (rs2 : RegIdx) : Sys2Proof.Laws.RoundTrip.Statement (.sllw rd rs1 rs2) := by
  intro _
  refine (Sys2Proof.Laws.decode_full_join _).trans ?_
  rfl

theorem Sys2Proof.Laws.RoundTrip.srlw (rd : RegIdx) (rs1 : RegIdx) (rs2 : RegIdx) : Sys2Proof.Laws.RoundTrip.Statement (.srlw rd rs1 rs2) := by
  intro _
  refine (Sys2Proof.Laws.decode_full_join _).trans ?_
  rfl

theorem Sys2Proof.Laws.RoundTrip.sraw (rd : RegIdx) (rs1 : RegIdx) (rs2 : RegIdx) : Sys2Proof.Laws.RoundTrip.Statement (.sraw rd rs1 rs2) := by
  intro _
  refine (Sys2Proof.Laws.decode_full_join _).trans ?_
  rfl

theorem Sys2Proof.Laws.RoundTrip.jal (rd : RegIdx) (imm : BitVec 20) : Sys2Proof.Laws.RoundTrip.Statement (.jal rd imm) := by
  intro _
  refine (Sys2Proof.Laws.decode_full_join _).trans ?_
  show Except.ok (Instr.jal rd (Fields32.typeJ 0x6F rd imm).immJ) = _
  rw [Fields32.immJ_typeJ]

theorem Sys2Proof.Laws.RoundTrip.jalr (rd : RegIdx) (rs1 : RegIdx) (imm : BitVec 12) : Sys2Proof.Laws.RoundTrip.Statement (.jalr rd rs1 imm) := by
  intro _
  refine (Sys2Proof.Laws.decode_full_join _).trans ?_
  show Except.ok (Instr.jalr rd rs1 (Fields32.typeI 0x67 0 rd rs1 imm).immI) = _
  rw [Fields32.immI_typeI]

theorem Sys2Proof.Laws.RoundTrip.beq (rs1 : RegIdx) (rs2 : RegIdx) (imm : BitVec 12) : Sys2Proof.Laws.RoundTrip.Statement (.beq rs1 rs2 imm) := by
  intro _
  refine (Sys2Proof.Laws.decode_full_join _).trans ?_
  show Except.ok (Instr.beq rs1 rs2 (Fields32.typeB 0x63 0 rs1 rs2 imm).immB) = _
  rw [Fields32.immB_typeB]

theorem Sys2Proof.Laws.RoundTrip.bne (rs1 : RegIdx) (rs2 : RegIdx) (imm : BitVec 12) : Sys2Proof.Laws.RoundTrip.Statement (.bne rs1 rs2 imm) := by
  intro _
  refine (Sys2Proof.Laws.decode_full_join _).trans ?_
  show Except.ok (Instr.bne rs1 rs2 (Fields32.typeB 0x63 1 rs1 rs2 imm).immB) = _
  rw [Fields32.immB_typeB]

theorem Sys2Proof.Laws.RoundTrip.blt (rs1 : RegIdx) (rs2 : RegIdx) (imm : BitVec 12) : Sys2Proof.Laws.RoundTrip.Statement (.blt rs1 rs2 imm) := by
  intro _
  refine (Sys2Proof.Laws.decode_full_join _).trans ?_
  show Except.ok (Instr.blt rs1 rs2 (Fields32.typeB 0x63 4 rs1 rs2 imm).immB) = _
  rw [Fields32.immB_typeB]

theorem Sys2Proof.Laws.RoundTrip.bge (rs1 : RegIdx) (rs2 : RegIdx) (imm : BitVec 12) : Sys2Proof.Laws.RoundTrip.Statement (.bge rs1 rs2 imm) := by
  intro _
  refine (Sys2Proof.Laws.decode_full_join _).trans ?_
  show Except.ok (Instr.bge rs1 rs2 (Fields32.typeB 0x63 5 rs1 rs2 imm).immB) = _
  rw [Fields32.immB_typeB]

theorem Sys2Proof.Laws.RoundTrip.bltu (rs1 : RegIdx) (rs2 : RegIdx) (imm : BitVec 12) : Sys2Proof.Laws.RoundTrip.Statement (.bltu rs1 rs2 imm) := by
  intro _
  refine (Sys2Proof.Laws.decode_full_join _).trans ?_
  show Except.ok (Instr.bltu rs1 rs2 (Fields32.typeB 0x63 6 rs1 rs2 imm).immB) = _
  rw [Fields32.immB_typeB]

theorem Sys2Proof.Laws.RoundTrip.bgeu (rs1 : RegIdx) (rs2 : RegIdx) (imm : BitVec 12) : Sys2Proof.Laws.RoundTrip.Statement (.bgeu rs1 rs2 imm) := by
  intro _
  refine (Sys2Proof.Laws.decode_full_join _).trans ?_
  show Except.ok (Instr.bgeu rs1 rs2 (Fields32.typeB 0x63 7 rs1 rs2 imm).immB) = _
  rw [Fields32.immB_typeB]

theorem Sys2Proof.Laws.RoundTrip.lb (rd : RegIdx) (rs1 : RegIdx) (imm : BitVec 12) : Sys2Proof.Laws.RoundTrip.Statement (.lb rd rs1 imm) := by
  intro _
  refine (Sys2Proof.Laws.decode_full_join _).trans ?_
  show Except.ok (Instr.lb rd rs1 (Fields32.typeI 0x03 0 rd rs1 imm).immI) = _
  rw [Fields32.immI_typeI]

theorem Sys2Proof.Laws.RoundTrip.lh (rd : RegIdx) (rs1 : RegIdx) (imm : BitVec 12) : Sys2Proof.Laws.RoundTrip.Statement (.lh rd rs1 imm) := by
  intro _
  refine (Sys2Proof.Laws.decode_full_join _).trans ?_
  show Except.ok (Instr.lh rd rs1 (Fields32.typeI 0x03 1 rd rs1 imm).immI) = _
  rw [Fields32.immI_typeI]

theorem Sys2Proof.Laws.RoundTrip.lw (rd : RegIdx) (rs1 : RegIdx) (imm : BitVec 12) : Sys2Proof.Laws.RoundTrip.Statement (.lw rd rs1 imm) := by
  intro _
  refine (Sys2Proof.Laws.decode_full_join _).trans ?_
  show Except.ok (Instr.lw rd rs1 (Fields32.typeI 0x03 2 rd rs1 imm).immI) = _
  rw [Fields32.immI_typeI]

theorem Sys2Proof.Laws.RoundTrip.ld (rd : RegIdx) (rs1 : RegIdx) (imm : BitVec 12) : Sys2Proof.Laws.RoundTrip.Statement (.ld rd rs1 imm) := by
  intro _
  refine (Sys2Proof.Laws.decode_full_join _).trans ?_
  show Except.ok (Instr.ld rd rs1 (Fields32.typeI 0x03 3 rd rs1 imm).immI) = _
  rw [Fields32.immI_typeI]

theorem Sys2Proof.Laws.RoundTrip.lbu (rd : RegIdx) (rs1 : RegIdx) (imm : BitVec 12) : Sys2Proof.Laws.RoundTrip.Statement (.lbu rd rs1 imm) := by
  intro _
  refine (Sys2Proof.Laws.decode_full_join _).trans ?_
  show Except.ok (Instr.lbu rd rs1 (Fields32.typeI 0x03 4 rd rs1 imm).immI) = _
  rw [Fields32.immI_typeI]

theorem Sys2Proof.Laws.RoundTrip.lhu (rd : RegIdx) (rs1 : RegIdx) (imm : BitVec 12) : Sys2Proof.Laws.RoundTrip.Statement (.lhu rd rs1 imm) := by
  intro _
  refine (Sys2Proof.Laws.decode_full_join _).trans ?_
  show Except.ok (Instr.lhu rd rs1 (Fields32.typeI 0x03 5 rd rs1 imm).immI) = _
  rw [Fields32.immI_typeI]

theorem Sys2Proof.Laws.RoundTrip.lwu (rd : RegIdx) (rs1 : RegIdx) (imm : BitVec 12) : Sys2Proof.Laws.RoundTrip.Statement (.lwu rd rs1 imm) := by
  intro _
  refine (Sys2Proof.Laws.decode_full_join _).trans ?_
  show Except.ok (Instr.lwu rd rs1 (Fields32.typeI 0x03 6 rd rs1 imm).immI) = _
  rw [Fields32.immI_typeI]

theorem Sys2Proof.Laws.RoundTrip.sb (rs1 : RegIdx) (rs2 : RegIdx) (imm : BitVec 12) : Sys2Proof.Laws.RoundTrip.Statement (.sb rs1 rs2 imm) := by
  intro _
  refine (Sys2Proof.Laws.decode_full_join _).trans ?_
  show Except.ok (Instr.sb rs1 rs2 (Fields32.typeS 0x23 0 rs1 rs2 imm).immS) = _
  rw [Fields32.immS_typeS]

theorem Sys2Proof.Laws.RoundTrip.sh (rs1 : RegIdx) (rs2 : RegIdx) (imm : BitVec 12) : Sys2Proof.Laws.RoundTrip.Statement (.sh rs1 rs2 imm) := by
  intro _
  refine (Sys2Proof.Laws.decode_full_join _).trans ?_
  show Except.ok (Instr.sh rs1 rs2 (Fields32.typeS 0x23 1 rs1 rs2 imm).immS) = _
  rw [Fields32.immS_typeS]

theorem Sys2Proof.Laws.RoundTrip.sw (rs1 : RegIdx) (rs2 : RegIdx) (imm : BitVec 12) : Sys2Proof.Laws.RoundTrip.Statement (.sw rs1 rs2 imm) := by
  intro _
  refine (Sys2Proof.Laws.decode_full_join _).trans ?_
  show Except.ok (Instr.sw rs1 rs2 (Fields32.typeS 0x23 2 rs1 rs2 imm).immS) = _
  rw [Fields32.immS_typeS]

theorem Sys2Proof.Laws.RoundTrip.sd (rs1 : RegIdx) (rs2 : RegIdx) (imm : BitVec 12) : Sys2Proof.Laws.RoundTrip.Statement (.sd rs1 rs2 imm) := by
  intro _
  refine (Sys2Proof.Laws.decode_full_join _).trans ?_
  show Except.ok (Instr.sd rs1 rs2 (Fields32.typeS 0x23 3 rs1 rs2 imm).immS) = _
  rw [Fields32.immS_typeS]

theorem Sys2Proof.Laws.RoundTrip.mul (rd : RegIdx) (rs1 : RegIdx) (rs2 : RegIdx) : Sys2Proof.Laws.RoundTrip.Statement (.mul rd rs1 rs2) := by
  intro _
  refine (Sys2Proof.Laws.decode_full_join _).trans ?_
  rfl

theorem Sys2Proof.Laws.RoundTrip.mulh (rd : RegIdx) (rs1 : RegIdx) (rs2 : RegIdx) : Sys2Proof.Laws.RoundTrip.Statement (.mulh rd rs1 rs2) := by
  intro _
  refine (Sys2Proof.Laws.decode_full_join _).trans ?_
  rfl

theorem Sys2Proof.Laws.RoundTrip.mulhsu (rd : RegIdx) (rs1 : RegIdx) (rs2 : RegIdx) : Sys2Proof.Laws.RoundTrip.Statement (.mulhsu rd rs1 rs2) := by
  intro _
  refine (Sys2Proof.Laws.decode_full_join _).trans ?_
  rfl

theorem Sys2Proof.Laws.RoundTrip.mulhu (rd : RegIdx) (rs1 : RegIdx) (rs2 : RegIdx) : Sys2Proof.Laws.RoundTrip.Statement (.mulhu rd rs1 rs2) := by
  intro _
  refine (Sys2Proof.Laws.decode_full_join _).trans ?_
  rfl

theorem Sys2Proof.Laws.RoundTrip.mulw (rd : RegIdx) (rs1 : RegIdx) (rs2 : RegIdx) : Sys2Proof.Laws.RoundTrip.Statement (.mulw rd rs1 rs2) := by
  intro _
  refine (Sys2Proof.Laws.decode_full_join _).trans ?_
  rfl

theorem Sys2Proof.Laws.RoundTrip.div (rd : RegIdx) (rs1 : RegIdx) (rs2 : RegIdx) : Sys2Proof.Laws.RoundTrip.Statement (.div rd rs1 rs2) := by
  intro _
  refine (Sys2Proof.Laws.decode_full_join _).trans ?_
  rfl

theorem Sys2Proof.Laws.RoundTrip.divu (rd : RegIdx) (rs1 : RegIdx) (rs2 : RegIdx) : Sys2Proof.Laws.RoundTrip.Statement (.divu rd rs1 rs2) := by
  intro _
  refine (Sys2Proof.Laws.decode_full_join _).trans ?_
  rfl

theorem Sys2Proof.Laws.RoundTrip.rem (rd : RegIdx) (rs1 : RegIdx) (rs2 : RegIdx) : Sys2Proof.Laws.RoundTrip.Statement (.rem rd rs1 rs2) := by
  intro _
  refine (Sys2Proof.Laws.decode_full_join _).trans ?_
  rfl

theorem Sys2Proof.Laws.RoundTrip.remu (rd : RegIdx) (rs1 : RegIdx) (rs2 : RegIdx) : Sys2Proof.Laws.RoundTrip.Statement (.remu rd rs1 rs2) := by
  intro _
  refine (Sys2Proof.Laws.decode_full_join _).trans ?_
  rfl

theorem Sys2Proof.Laws.RoundTrip.divw (rd : RegIdx) (rs1 : RegIdx) (rs2 : RegIdx) : Sys2Proof.Laws.RoundTrip.Statement (.divw rd rs1 rs2) := by
  intro _
  refine (Sys2Proof.Laws.decode_full_join _).trans ?_
  rfl

theorem Sys2Proof.Laws.RoundTrip.divuw (rd : RegIdx) (rs1 : RegIdx) (rs2 : RegIdx) : Sys2Proof.Laws.RoundTrip.Statement (.divuw rd rs1 rs2) := by
  intro _
  refine (Sys2Proof.Laws.decode_full_join _).trans ?_
  rfl

theorem Sys2Proof.Laws.RoundTrip.remw (rd : RegIdx) (rs1 : RegIdx) (rs2 : RegIdx) : Sys2Proof.Laws.RoundTrip.Statement (.remw rd rs1 rs2) := by
  intro _
  refine (Sys2Proof.Laws.decode_full_join _).trans ?_
  rfl

theorem Sys2Proof.Laws.RoundTrip.remuw (rd : RegIdx) (rs1 : RegIdx) (rs2 : RegIdx) : Sys2Proof.Laws.RoundTrip.Statement (.remuw rd rs1 rs2) := by
  intro _
  refine (Sys2Proof.Laws.decode_full_join _).trans ?_
  rfl

theorem Sys2Proof.Laws.RoundTrip.lrW (rd : RegIdx) (rs1 : RegIdx) (aq : BitVec 1) (rl : BitVec 1) :
    Sys2Proof.Laws.RoundTrip.Statement (.lrW rd rs1 aq rl) := by
  intro _
  refine (Sys2Proof.Laws.decode_full_join _).trans ?_
  show decodeAmo (Fields32.typeAmo 2 0x02 rd rs1 0 aq rl) = _
  simp only [decodeAmo, show (Fields32.typeAmo 2 0x02 rd rs1 0 aq rl).funct3 = 2 from rfl, Fields32.funct5_typeAmo, Fields32.aq_typeAmo, Fields32.rl_typeAmo]
  rfl

theorem Sys2Proof.Laws.RoundTrip.lrD (rd : RegIdx) (rs1 : RegIdx) (aq : BitVec 1) (rl : BitVec 1) :
    Sys2Proof.Laws.RoundTrip.Statement (.lrD rd rs1 aq rl) := by
  intro _
  refine (Sys2Proof.Laws.decode_full_join _).trans ?_
  show decodeAmo (Fields32.typeAmo 3 0x02 rd rs1 0 aq rl) = _
  simp only [decodeAmo, show (Fields32.typeAmo 3 0x02 rd rs1 0 aq rl).funct3 = 3 from rfl, Fields32.funct5_typeAmo, Fields32.aq_typeAmo, Fields32.rl_typeAmo]
  rfl

theorem Sys2Proof.Laws.RoundTrip.scW (rd : RegIdx) (rs1 : RegIdx) (rs2 : RegIdx) (aq : BitVec 1) (rl : BitVec 1) :
    Sys2Proof.Laws.RoundTrip.Statement (.scW rd rs1 rs2 aq rl) := by
  intro _
  refine (Sys2Proof.Laws.decode_full_join _).trans ?_
  show decodeAmo (Fields32.typeAmo 2 0x03 rd rs1 rs2 aq rl) = _
  simp only [decodeAmo, show (Fields32.typeAmo 2 0x03 rd rs1 rs2 aq rl).funct3 = 2 from rfl, Fields32.funct5_typeAmo, Fields32.aq_typeAmo, Fields32.rl_typeAmo]
  rfl

theorem Sys2Proof.Laws.RoundTrip.scD (rd : RegIdx) (rs1 : RegIdx) (rs2 : RegIdx) (aq : BitVec 1) (rl : BitVec 1) :
    Sys2Proof.Laws.RoundTrip.Statement (.scD rd rs1 rs2 aq rl) := by
  intro _
  refine (Sys2Proof.Laws.decode_full_join _).trans ?_
  show decodeAmo (Fields32.typeAmo 3 0x03 rd rs1 rs2 aq rl) = _
  simp only [decodeAmo, show (Fields32.typeAmo 3 0x03 rd rs1 rs2 aq rl).funct3 = 3 from rfl, Fields32.funct5_typeAmo, Fields32.aq_typeAmo, Fields32.rl_typeAmo]
  rfl

theorem Sys2Proof.Laws.RoundTrip.amoswapW (rd : RegIdx) (rs1 : RegIdx) (rs2 : RegIdx) (aq : BitVec 1) (rl : BitVec 1) :
    Sys2Proof.Laws.RoundTrip.Statement (.amoswapW rd rs1 rs2 aq rl) := by
  intro _
  refine (Sys2Proof.Laws.decode_full_join _).trans ?_
  show decodeAmo (Fields32.typeAmo 2 0x01 rd rs1 rs2 aq rl) = _
  simp only [decodeAmo, show (Fields32.typeAmo 2 0x01 rd rs1 rs2 aq rl).funct3 = 2 from rfl, Fields32.funct5_typeAmo, Fields32.aq_typeAmo, Fields32.rl_typeAmo]
  rfl

theorem Sys2Proof.Laws.RoundTrip.amoaddW (rd : RegIdx) (rs1 : RegIdx) (rs2 : RegIdx) (aq : BitVec 1) (rl : BitVec 1) :
    Sys2Proof.Laws.RoundTrip.Statement (.amoaddW rd rs1 rs2 aq rl) := by
  intro _
  refine (Sys2Proof.Laws.decode_full_join _).trans ?_
  show decodeAmo (Fields32.typeAmo 2 0x00 rd rs1 rs2 aq rl) = _
  simp only [decodeAmo, show (Fields32.typeAmo 2 0x00 rd rs1 rs2 aq rl).funct3 = 2 from rfl, Fields32.funct5_typeAmo, Fields32.aq_typeAmo, Fields32.rl_typeAmo]
  rfl

theorem Sys2Proof.Laws.RoundTrip.amoxorW (rd : RegIdx) (rs1 : RegIdx) (rs2 : RegIdx) (aq : BitVec 1) (rl : BitVec 1) :
    Sys2Proof.Laws.RoundTrip.Statement (.amoxorW rd rs1 rs2 aq rl) := by
  intro _
  refine (Sys2Proof.Laws.decode_full_join _).trans ?_
  show decodeAmo (Fields32.typeAmo 2 0x04 rd rs1 rs2 aq rl) = _
  simp only [decodeAmo, show (Fields32.typeAmo 2 0x04 rd rs1 rs2 aq rl).funct3 = 2 from rfl, Fields32.funct5_typeAmo, Fields32.aq_typeAmo, Fields32.rl_typeAmo]
  rfl

theorem Sys2Proof.Laws.RoundTrip.amoandW (rd : RegIdx) (rs1 : RegIdx) (rs2 : RegIdx) (aq : BitVec 1) (rl : BitVec 1) :
    Sys2Proof.Laws.RoundTrip.Statement (.amoandW rd rs1 rs2 aq rl) := by
  intro _
  refine (Sys2Proof.Laws.decode_full_join _).trans ?_
  show decodeAmo (Fields32.typeAmo 2 0x0C rd rs1 rs2 aq rl) = _
  simp only [decodeAmo, show (Fields32.typeAmo 2 0x0C rd rs1 rs2 aq rl).funct3 = 2 from rfl, Fields32.funct5_typeAmo, Fields32.aq_typeAmo, Fields32.rl_typeAmo]
  rfl

theorem Sys2Proof.Laws.RoundTrip.amoorW (rd : RegIdx) (rs1 : RegIdx) (rs2 : RegIdx) (aq : BitVec 1) (rl : BitVec 1) :
    Sys2Proof.Laws.RoundTrip.Statement (.amoorW rd rs1 rs2 aq rl) := by
  intro _
  refine (Sys2Proof.Laws.decode_full_join _).trans ?_
  show decodeAmo (Fields32.typeAmo 2 0x08 rd rs1 rs2 aq rl) = _
  simp only [decodeAmo, show (Fields32.typeAmo 2 0x08 rd rs1 rs2 aq rl).funct3 = 2 from rfl, Fields32.funct5_typeAmo, Fields32.aq_typeAmo, Fields32.rl_typeAmo]
  rfl

theorem Sys2Proof.Laws.RoundTrip.amominW (rd : RegIdx) (rs1 : RegIdx) (rs2 : RegIdx) (aq : BitVec 1) (rl : BitVec 1) :
    Sys2Proof.Laws.RoundTrip.Statement (.amominW rd rs1 rs2 aq rl) := by
  intro _
  refine (Sys2Proof.Laws.decode_full_join _).trans ?_
  show decodeAmo (Fields32.typeAmo 2 0x10 rd rs1 rs2 aq rl) = _
  simp only [decodeAmo, show (Fields32.typeAmo 2 0x10 rd rs1 rs2 aq rl).funct3 = 2 from rfl, Fields32.funct5_typeAmo, Fields32.aq_typeAmo, Fields32.rl_typeAmo]
  rfl

theorem Sys2Proof.Laws.RoundTrip.amomaxW (rd : RegIdx) (rs1 : RegIdx) (rs2 : RegIdx) (aq : BitVec 1) (rl : BitVec 1) :
    Sys2Proof.Laws.RoundTrip.Statement (.amomaxW rd rs1 rs2 aq rl) := by
  intro _
  refine (Sys2Proof.Laws.decode_full_join _).trans ?_
  show decodeAmo (Fields32.typeAmo 2 0x14 rd rs1 rs2 aq rl) = _
  simp only [decodeAmo, show (Fields32.typeAmo 2 0x14 rd rs1 rs2 aq rl).funct3 = 2 from rfl, Fields32.funct5_typeAmo, Fields32.aq_typeAmo, Fields32.rl_typeAmo]
  rfl

theorem Sys2Proof.Laws.RoundTrip.amominuW (rd : RegIdx) (rs1 : RegIdx) (rs2 : RegIdx) (aq : BitVec 1) (rl : BitVec 1) :
    Sys2Proof.Laws.RoundTrip.Statement (.amominuW rd rs1 rs2 aq rl) := by
  intro _
  refine (Sys2Proof.Laws.decode_full_join _).trans ?_
  show decodeAmo (Fields32.typeAmo 2 0x18 rd rs1 rs2 aq rl) = _
  simp only [decodeAmo, show (Fields32.typeAmo 2 0x18 rd rs1 rs2 aq rl).funct3 = 2 from rfl, Fields32.funct5_typeAmo, Fields32.aq_typeAmo, Fields32.rl_typeAmo]
  rfl

theorem Sys2Proof.Laws.RoundTrip.amomaxuW (rd : RegIdx) (rs1 : RegIdx) (rs2 : RegIdx) (aq : BitVec 1) (rl : BitVec 1) :
    Sys2Proof.Laws.RoundTrip.Statement (.amomaxuW rd rs1 rs2 aq rl) := by
  intro _
  refine (Sys2Proof.Laws.decode_full_join _).trans ?_
  show decodeAmo (Fields32.typeAmo 2 0x1C rd rs1 rs2 aq rl) = _
  simp only [decodeAmo, show (Fields32.typeAmo 2 0x1C rd rs1 rs2 aq rl).funct3 = 2 from rfl, Fields32.funct5_typeAmo, Fields32.aq_typeAmo, Fields32.rl_typeAmo]
  rfl

theorem Sys2Proof.Laws.RoundTrip.amoswapD (rd : RegIdx) (rs1 : RegIdx) (rs2 : RegIdx) (aq : BitVec 1) (rl : BitVec 1) :
    Sys2Proof.Laws.RoundTrip.Statement (.amoswapD rd rs1 rs2 aq rl) := by
  intro _
  refine (Sys2Proof.Laws.decode_full_join _).trans ?_
  show decodeAmo (Fields32.typeAmo 3 0x01 rd rs1 rs2 aq rl) = _
  simp only [decodeAmo, show (Fields32.typeAmo 3 0x01 rd rs1 rs2 aq rl).funct3 = 3 from rfl, Fields32.funct5_typeAmo, Fields32.aq_typeAmo, Fields32.rl_typeAmo]
  rfl

theorem Sys2Proof.Laws.RoundTrip.amoaddD (rd : RegIdx) (rs1 : RegIdx) (rs2 : RegIdx) (aq : BitVec 1) (rl : BitVec 1) :
    Sys2Proof.Laws.RoundTrip.Statement (.amoaddD rd rs1 rs2 aq rl) := by
  intro _
  refine (Sys2Proof.Laws.decode_full_join _).trans ?_
  show decodeAmo (Fields32.typeAmo 3 0x00 rd rs1 rs2 aq rl) = _
  simp only [decodeAmo, show (Fields32.typeAmo 3 0x00 rd rs1 rs2 aq rl).funct3 = 3 from rfl, Fields32.funct5_typeAmo, Fields32.aq_typeAmo, Fields32.rl_typeAmo]
  rfl

theorem Sys2Proof.Laws.RoundTrip.amoxorD (rd : RegIdx) (rs1 : RegIdx) (rs2 : RegIdx) (aq : BitVec 1) (rl : BitVec 1) :
    Sys2Proof.Laws.RoundTrip.Statement (.amoxorD rd rs1 rs2 aq rl) := by
  intro _
  refine (Sys2Proof.Laws.decode_full_join _).trans ?_
  show decodeAmo (Fields32.typeAmo 3 0x04 rd rs1 rs2 aq rl) = _
  simp only [decodeAmo, show (Fields32.typeAmo 3 0x04 rd rs1 rs2 aq rl).funct3 = 3 from rfl, Fields32.funct5_typeAmo, Fields32.aq_typeAmo, Fields32.rl_typeAmo]
  rfl

theorem Sys2Proof.Laws.RoundTrip.amoandD (rd : RegIdx) (rs1 : RegIdx) (rs2 : RegIdx) (aq : BitVec 1) (rl : BitVec 1) :
    Sys2Proof.Laws.RoundTrip.Statement (.amoandD rd rs1 rs2 aq rl) := by
  intro _
  refine (Sys2Proof.Laws.decode_full_join _).trans ?_
  show decodeAmo (Fields32.typeAmo 3 0x0C rd rs1 rs2 aq rl) = _
  simp only [decodeAmo, show (Fields32.typeAmo 3 0x0C rd rs1 rs2 aq rl).funct3 = 3 from rfl, Fields32.funct5_typeAmo, Fields32.aq_typeAmo, Fields32.rl_typeAmo]
  rfl

theorem Sys2Proof.Laws.RoundTrip.amoorD (rd : RegIdx) (rs1 : RegIdx) (rs2 : RegIdx) (aq : BitVec 1) (rl : BitVec 1) :
    Sys2Proof.Laws.RoundTrip.Statement (.amoorD rd rs1 rs2 aq rl) := by
  intro _
  refine (Sys2Proof.Laws.decode_full_join _).trans ?_
  show decodeAmo (Fields32.typeAmo 3 0x08 rd rs1 rs2 aq rl) = _
  simp only [decodeAmo, show (Fields32.typeAmo 3 0x08 rd rs1 rs2 aq rl).funct3 = 3 from rfl, Fields32.funct5_typeAmo, Fields32.aq_typeAmo, Fields32.rl_typeAmo]
  rfl

theorem Sys2Proof.Laws.RoundTrip.amominD (rd : RegIdx) (rs1 : RegIdx) (rs2 : RegIdx) (aq : BitVec 1) (rl : BitVec 1) :
    Sys2Proof.Laws.RoundTrip.Statement (.amominD rd rs1 rs2 aq rl) := by
  intro _
  refine (Sys2Proof.Laws.decode_full_join _).trans ?_
  show decodeAmo (Fields32.typeAmo 3 0x10 rd rs1 rs2 aq rl) = _
  simp only [decodeAmo, show (Fields32.typeAmo 3 0x10 rd rs1 rs2 aq rl).funct3 = 3 from rfl, Fields32.funct5_typeAmo, Fields32.aq_typeAmo, Fields32.rl_typeAmo]
  rfl

theorem Sys2Proof.Laws.RoundTrip.amomaxD (rd : RegIdx) (rs1 : RegIdx) (rs2 : RegIdx) (aq : BitVec 1) (rl : BitVec 1) :
    Sys2Proof.Laws.RoundTrip.Statement (.amomaxD rd rs1 rs2 aq rl) := by
  intro _
  refine (Sys2Proof.Laws.decode_full_join _).trans ?_
  show decodeAmo (Fields32.typeAmo 3 0x14 rd rs1 rs2 aq rl) = _
  simp only [decodeAmo, show (Fields32.typeAmo 3 0x14 rd rs1 rs2 aq rl).funct3 = 3 from rfl, Fields32.funct5_typeAmo, Fields32.aq_typeAmo, Fields32.rl_typeAmo]
  rfl

theorem Sys2Proof.Laws.RoundTrip.amominuD (rd : RegIdx) (rs1 : RegIdx) (rs2 : RegIdx) (aq : BitVec 1) (rl : BitVec 1) :
    Sys2Proof.Laws.RoundTrip.Statement (.amominuD rd rs1 rs2 aq rl) := by
  intro _
  refine (Sys2Proof.Laws.decode_full_join _).trans ?_
  show decodeAmo (Fields32.typeAmo 3 0x18 rd rs1 rs2 aq rl) = _
  simp only [decodeAmo, show (Fields32.typeAmo 3 0x18 rd rs1 rs2 aq rl).funct3 = 3 from rfl, Fields32.funct5_typeAmo, Fields32.aq_typeAmo, Fields32.rl_typeAmo]
  rfl

theorem Sys2Proof.Laws.RoundTrip.amomaxuD (rd : RegIdx) (rs1 : RegIdx) (rs2 : RegIdx) (aq : BitVec 1) (rl : BitVec 1) :
    Sys2Proof.Laws.RoundTrip.Statement (.amomaxuD rd rs1 rs2 aq rl) := by
  intro _
  refine (Sys2Proof.Laws.decode_full_join _).trans ?_
  show decodeAmo (Fields32.typeAmo 3 0x1C rd rs1 rs2 aq rl) = _
  simp only [decodeAmo, show (Fields32.typeAmo 3 0x1C rd rs1 rs2 aq rl).funct3 = 3 from rfl, Fields32.funct5_typeAmo, Fields32.aq_typeAmo, Fields32.rl_typeAmo]
  rfl

theorem Sys2Proof.Laws.RoundTrip.csrrw (rd : RegIdx) (rs1 : RegIdx) (csr : CsrNum) : Sys2Proof.Laws.RoundTrip.Statement (.csrrw rd rs1 csr) := by
  intro _
  refine (Sys2Proof.Laws.decode_full_join _).trans ?_
  show Except.ok (Instr.csrrw rd rs1 (Fields32.typeI 0x73 1 rd rs1 csr).immI) = _
  rw [Fields32.immI_typeI]

theorem Sys2Proof.Laws.RoundTrip.csrrs (rd : RegIdx) (rs1 : RegIdx) (csr : CsrNum) : Sys2Proof.Laws.RoundTrip.Statement (.csrrs rd rs1 csr) := by
  intro _
  refine (Sys2Proof.Laws.decode_full_join _).trans ?_
  show Except.ok (Instr.csrrs rd rs1 (Fields32.typeI 0x73 2 rd rs1 csr).immI) = _
  rw [Fields32.immI_typeI]

theorem Sys2Proof.Laws.RoundTrip.csrrc (rd : RegIdx) (rs1 : RegIdx) (csr : CsrNum) : Sys2Proof.Laws.RoundTrip.Statement (.csrrc rd rs1 csr) := by
  intro _
  refine (Sys2Proof.Laws.decode_full_join _).trans ?_
  show Except.ok (Instr.csrrc rd rs1 (Fields32.typeI 0x73 3 rd rs1 csr).immI) = _
  rw [Fields32.immI_typeI]

theorem Sys2Proof.Laws.RoundTrip.csrrwi (rd : RegIdx) (uimm : BitVec 5) (csr : CsrNum) : Sys2Proof.Laws.RoundTrip.Statement (.csrrwi rd uimm csr) := by
  intro _
  refine (Sys2Proof.Laws.decode_full_join _).trans ?_
  show Except.ok (Instr.csrrwi rd uimm (Fields32.typeI 0x73 5 rd uimm csr).immI) = _
  rw [Fields32.immI_typeI]

theorem Sys2Proof.Laws.RoundTrip.csrrsi (rd : RegIdx) (uimm : BitVec 5) (csr : CsrNum) : Sys2Proof.Laws.RoundTrip.Statement (.csrrsi rd uimm csr) := by
  intro _
  refine (Sys2Proof.Laws.decode_full_join _).trans ?_
  show Except.ok (Instr.csrrsi rd uimm (Fields32.typeI 0x73 6 rd uimm csr).immI) = _
  rw [Fields32.immI_typeI]

theorem Sys2Proof.Laws.RoundTrip.csrrci (rd : RegIdx) (uimm : BitVec 5) (csr : CsrNum) : Sys2Proof.Laws.RoundTrip.Statement (.csrrci rd uimm csr) := by
  intro _
  refine (Sys2Proof.Laws.decode_full_join _).trans ?_
  show Except.ok (Instr.csrrci rd uimm (Fields32.typeI 0x73 7 rd uimm csr).immI) = _
  rw [Fields32.immI_typeI]

theorem Sys2Proof.Laws.RoundTrip.ecall : Sys2Proof.Laws.RoundTrip.Statement .ecall := by
  intro _
  refine (Sys2Proof.Laws.decode_full_join _).trans ?_
  rfl

theorem Sys2Proof.Laws.RoundTrip.ebreak : Sys2Proof.Laws.RoundTrip.Statement .ebreak := by
  intro _
  refine (Sys2Proof.Laws.decode_full_join _).trans ?_
  rfl

theorem Sys2Proof.Laws.RoundTrip.uret : Sys2Proof.Laws.RoundTrip.Statement .uret := by
  intro _
  refine (Sys2Proof.Laws.decode_full_join _).trans ?_
  rfl

theorem Sys2Proof.Laws.RoundTrip.sret : Sys2Proof.Laws.RoundTrip.Statement .sret := by
  intro _
  refine (Sys2Proof.Laws.decode_full_join _).trans ?_
  rfl

theorem Sys2Proof.Laws.RoundTrip.mret : Sys2Proof.Laws.RoundTrip.Statement .mret := by
  intro _
  refine (Sys2Proof.Laws.decode_full_join _).trans ?_
  rfl

theorem Sys2Proof.Laws.RoundTrip.wfi : Sys2Proof.Laws.RoundTrip.Statement .wfi := by
  intro _
  refine (Sys2Proof.Laws.decode_full_join _).trans ?_
  rfl

theorem Sys2Proof.Laws.RoundTrip.sfenceVma (rs1 : RegIdx) (rs2 : RegIdx) : Sys2Proof.Laws.RoundTrip.Statement (.sfenceVma rs1 rs2) := by
  intro _
  refine (Sys2Proof.Laws.decode_full_join _).trans ?_
  rfl

theorem Sys2Proof.Laws.RoundTrip.fence (fm : BitVec 4) (pred : BitVec 4) (succ : BitVec 4) (rs1 : RegIdx) (rd : RegIdx) :
    Sys2Proof.Laws.RoundTrip.Statement (.fence fm pred succ rs1 rd) := by
  intro _
  refine (Sys2Proof.Laws.decode_full_join _).trans ?_
  simp only [decodeFields32, decodeMiscMem]
  refine congrArg Except.ok ?_
  congr 1 <;>
    (apply BitVec.eq_of_getLsbD_eq
     intro i hi
     simp only [BitVec.getLsbD_append, BitVec.getLsbD_extractLsb']
     interval_cases i <;> rfl)

theorem Sys2Proof.Laws.RoundTrip.fenceI (imm : BitVec 12) (rs1 : RegIdx) (rd : RegIdx) : Sys2Proof.Laws.RoundTrip.Statement (.fenceI imm rs1 rd) := by
  intro _
  refine (Sys2Proof.Laws.decode_full_join _).trans ?_
  show Except.ok (Instr.fenceI (Fields32.typeI 0x0F 1 rd rs1 imm).immI rs1 rd) = _
  rw [Fields32.immI_typeI]

theorem Sys2Proof.Laws.RoundTrip.loadFp (bits : BitVec 25) : Sys2Proof.Laws.RoundTrip.Statement (.loadFp bits) := by
  intro _
  refine (Sys2Proof.Laws.decode_full_join _).trans ?_
  show Except.ok (Instr.loadFp (Fields32.typeAny 0x07 bits).above) = _
  rw [Fields32.above_typeAny]

theorem Sys2Proof.Laws.RoundTrip.storeFp (bits : BitVec 25) : Sys2Proof.Laws.RoundTrip.Statement (.storeFp bits) := by
  intro _
  refine (Sys2Proof.Laws.decode_full_join _).trans ?_
  show Except.ok (Instr.storeFp (Fields32.typeAny 0x27 bits).above) = _
  rw [Fields32.above_typeAny]

theorem Sys2Proof.Laws.RoundTrip.fmadd (bits : BitVec 25) : Sys2Proof.Laws.RoundTrip.Statement (.fmadd bits) := by
  intro _
  refine (Sys2Proof.Laws.decode_full_join _).trans ?_
  show Except.ok (Instr.fmadd (Fields32.typeAny 0x43 bits).above) = _
  rw [Fields32.above_typeAny]

theorem Sys2Proof.Laws.RoundTrip.fmsub (bits : BitVec 25) : Sys2Proof.Laws.RoundTrip.Statement (.fmsub bits) := by
  intro _
  refine (Sys2Proof.Laws.decode_full_join _).trans ?_
  show Except.ok (Instr.fmsub (Fields32.typeAny 0x47 bits).above) = _
  rw [Fields32.above_typeAny]

theorem Sys2Proof.Laws.RoundTrip.fnmsub (bits : BitVec 25) : Sys2Proof.Laws.RoundTrip.Statement (.fnmsub bits) := by
  intro _
  refine (Sys2Proof.Laws.decode_full_join _).trans ?_
  show Except.ok (Instr.fnmsub (Fields32.typeAny 0x4B bits).above) = _
  rw [Fields32.above_typeAny]

theorem Sys2Proof.Laws.RoundTrip.fnmadd (bits : BitVec 25) : Sys2Proof.Laws.RoundTrip.Statement (.fnmadd bits) := by
  intro _
  refine (Sys2Proof.Laws.decode_full_join _).trans ?_
  show Except.ok (Instr.fnmadd (Fields32.typeAny 0x4F bits).above) = _
  rw [Fields32.above_typeAny]

theorem Sys2Proof.Laws.RoundTrip.opFp (bits : BitVec 25) : Sys2Proof.Laws.RoundTrip.Statement (.opFp bits) := by
  intro _
  refine (Sys2Proof.Laws.decode_full_join _).trans ?_
  show Except.ok (Instr.opFp (Fields32.typeAny 0x53 bits).above) = _
  rw [Fields32.above_typeAny]

theorem Sys2Proof.Laws.RoundTrip.cIllegal : Sys2Proof.Laws.RoundTrip.Statement .cIllegal := by
  intro _
  exact (Sys2Proof.Laws.decode_half_join _).trans rfl

theorem Sys2Proof.Laws.RoundTrip.cAddi4spn (rd : CRegIdx) (imm : BitVec 8) : Sys2Proof.Laws.RoundTrip.Statement (.cAddi4spn rd imm) := by
  intro h
  have hne : imm ≠ 0 := of_decide_eq_true h
  refine (Sys2Proof.Laws.decode_half_join _).trans ?_
  show (if (Fields16.typeSpn rd imm).immSpn = 0 then _ else Except.ok (Instr.cAddi4spn rd (Fields16.typeSpn rd imm).immSpn)) = _
  rw [Fields16.immSpn_typeSpn, if_neg hne]

theorem Sys2Proof.Laws.RoundTrip.cFld (bits : BitVec 11) : Sys2Proof.Laws.RoundTrip.Statement (.cFld bits) := by
  intro _
  refine (Sys2Proof.Laws.decode_half_join _).trans ?_
  show Except.ok (Instr.cFld (Fields16.typeAny 0 1 bits).above) = _
  rw [Fields16.above_typeAny]

theorem Sys2Proof.Laws.RoundTrip.cLw (rd : CRegIdx) (rs1 : CRegIdx) (imm : BitVec 5) : Sys2Proof.Laws.RoundTrip.Statement (.cLw rd rs1 imm) := by
  intro _
  refine (Sys2Proof.Laws.decode_half_join _).trans ?_
  show Except.ok (Instr.cLw rd rs1 (Fields16.typeCWord 2 rs1 rd imm).immWord) = _
  rw [Fields16.immWord_typeCWord]

theorem Sys2Proof.Laws.RoundTrip.cLd (rd : CRegIdx) (rs1 : CRegIdx) (imm : BitVec 5) : Sys2Proof.Laws.RoundTrip.Statement (.cLd rd rs1 imm) := by
  intro _
  refine (Sys2Proof.Laws.decode_half_join _).trans ?_
  show Except.ok (Instr.cLd rd rs1 (Fields16.typeCDouble 3 rs1 rd imm).immDouble) = _
  rw [Fields16.immDouble_typeCDouble]

theorem Sys2Proof.Laws.RoundTrip.cReservedQ0 (bits : BitVec 11) : Sys2Proof.Laws.RoundTrip.Statement (.cReservedQ0 bits) := by
  intro _
  refine (Sys2Proof.Laws.decode_half_join _).trans ?_
  show Except.ok (Instr.cReservedQ0 (Fields16.typeAny 0 4 bits).above) = _
  rw [Fields16.above_typeAny]

theorem Sys2Proof.Laws.RoundTrip.cFsd (bits : BitVec 11) : Sys2Proof.Laws.RoundTrip.Statement (.cFsd bits) := by
  intro _
  refine (Sys2Proof.Laws.decode_half_join _).trans ?_
  show Except.ok (Instr.cFsd (Fields16.typeAny 0 5 bits).above) = _
  rw [Fields16.above_typeAny]

theorem Sys2Proof.Laws.RoundTrip.cSw (rs1 : CRegIdx) (rs2 : CRegIdx) (imm : BitVec 5) : Sys2Proof.Laws.RoundTrip.Statement (.cSw rs1 rs2 imm) := by
  intro _
  refine (Sys2Proof.Laws.decode_half_join _).trans ?_
  show Except.ok (Instr.cSw rs1 rs2 (Fields16.typeCWord 6 rs1 rs2 imm).immWord) = _
  rw [Fields16.immWord_typeCWord]

theorem Sys2Proof.Laws.RoundTrip.cSd (rs1 : CRegIdx) (rs2 : CRegIdx) (imm : BitVec 5) : Sys2Proof.Laws.RoundTrip.Statement (.cSd rs1 rs2 imm) := by
  intro _
  refine (Sys2Proof.Laws.decode_half_join _).trans ?_
  show Except.ok (Instr.cSd rs1 rs2 (Fields16.typeCDouble 7 rs1 rs2 imm).immDouble) = _
  rw [Fields16.immDouble_typeCDouble]

theorem Sys2Proof.Laws.RoundTrip.cNop (imm : BitVec 6) : Sys2Proof.Laws.RoundTrip.Statement (.cNop imm) := by
  intro _
  refine (Sys2Proof.Laws.decode_half_join _).trans ?_
  show decodeQuadrant1 (Fields16.typeCI 1 0 0 imm) = _
  simp only [decodeQuadrant1, show (Fields16.typeCI 1 0 0 imm).funct3 = 0 from rfl, Fields16.r_typeCI, Fields16.imm6_typeCI, if_true]
  rfl

theorem Sys2Proof.Laws.RoundTrip.cAddi (rd : RegIdx) (imm : BitVec 6) : Sys2Proof.Laws.RoundTrip.Statement (.cAddi rd imm) := by
  intro h
  have hne : rd ≠ 0 := of_decide_eq_true h
  refine (Sys2Proof.Laws.decode_half_join _).trans ?_
  show (if (Fields16.typeCI 1 0 rd imm).r = 0 then _ else Except.ok (Instr.cAddi (Fields16.typeCI 1 0 rd imm).r (Fields16.typeCI 1 0 rd imm).imm6)) = _
  rw [Fields16.r_typeCI, Fields16.imm6_typeCI, if_neg hne]

theorem Sys2Proof.Laws.RoundTrip.cAddiw (rd : RegIdx) (imm : BitVec 6) : Sys2Proof.Laws.RoundTrip.Statement (.cAddiw rd imm) := by
  intro h
  have hne : rd ≠ 0 := of_decide_eq_true h
  refine (Sys2Proof.Laws.decode_half_join _).trans ?_
  show (if (Fields16.typeCI 1 1 rd imm).r = 0 then _ else Except.ok (Instr.cAddiw (Fields16.typeCI 1 1 rd imm).r (Fields16.typeCI 1 1 rd imm).imm6)) = _
  rw [Fields16.r_typeCI, Fields16.imm6_typeCI, if_neg hne]

theorem Sys2Proof.Laws.RoundTrip.cLi (rd : RegIdx) (imm : BitVec 6) : Sys2Proof.Laws.RoundTrip.Statement (.cLi rd imm) := by
  intro _
  refine (Sys2Proof.Laws.decode_half_join _).trans ?_
  show Except.ok (Instr.cLi (Fields16.typeCI 1 2 rd imm).r (Fields16.typeCI 1 2 rd imm).imm6) = _
  rw [Fields16.r_typeCI, Fields16.imm6_typeCI]

theorem Sys2Proof.Laws.RoundTrip.cAddi16sp (imm : BitVec 6) : Sys2Proof.Laws.RoundTrip.Statement (.cAddi16sp imm) := by
  intro h
  have hne : imm ≠ 0 := of_decide_eq_true h
  refine (Sys2Proof.Laws.decode_half_join _).trans ?_
  show decodeQuadrant1 (Fields16.type16sp imm) = _
  simp only [decodeQuadrant1, show (Fields16.type16sp imm).funct3 = 3 from rfl, Fields16.r_type16sp, Fields16.imm16sp_type16sp, if_neg hne, if_true]
  rfl

theorem Sys2Proof.Laws.RoundTrip.cLui (rd : RegIdx) (imm : BitVec 6) : Sys2Proof.Laws.RoundTrip.Statement (.cLui rd imm) := by
  intro h
  have hne : rd ≠ 2 ∧ imm ≠ 0 := by simpa [WellFormed, Instr.wf] using h
  refine (Sys2Proof.Laws.decode_half_join _).trans ?_
  show (if (Fields16.typeCI 1 3 rd imm).r = 2 then _ else if (Fields16.typeCI 1 3 rd imm).imm6 = 0 then _ else Except.ok (Instr.cLui (Fields16.typeCI 1 3 rd imm).r (Fields16.typeCI 1 3 rd imm).imm6)) = _
  rw [Fields16.r_typeCI, Fields16.imm6_typeCI, if_neg hne.1, if_neg hne.2]

theorem Sys2Proof.Laws.RoundTrip.cSrli (rd : CRegIdx) (shamt : BitVec 6) : Sys2Proof.Laws.RoundTrip.Statement (.cSrli rd shamt) := by
  intro _
  refine (Sys2Proof.Laws.decode_half_join _).trans ?_
  show Except.ok (Instr.cSrli rd (Fields16.typeCBImm 0 rd shamt).imm6) = _
  rw [Fields16.imm6_typeCBImm]

theorem Sys2Proof.Laws.RoundTrip.cSrai (rd : CRegIdx) (shamt : BitVec 6) : Sys2Proof.Laws.RoundTrip.Statement (.cSrai rd shamt) := by
  intro _
  refine (Sys2Proof.Laws.decode_half_join _).trans ?_
  show Except.ok (Instr.cSrai rd (Fields16.typeCBImm 1 rd shamt).imm6) = _
  rw [Fields16.imm6_typeCBImm]

theorem Sys2Proof.Laws.RoundTrip.cAndi (rd : CRegIdx) (imm : BitVec 6) : Sys2Proof.Laws.RoundTrip.Statement (.cAndi rd imm) := by
  intro _
  refine (Sys2Proof.Laws.decode_half_join _).trans ?_
  show Except.ok (Instr.cAndi rd (Fields16.typeCBImm 2 rd imm).imm6) = _
  rw [Fields16.imm6_typeCBImm]

theorem Sys2Proof.Laws.RoundTrip.cSub (rd : CRegIdx) (rs2 : CRegIdx) : Sys2Proof.Laws.RoundTrip.Statement (.cSub rd rs2) := by
  intro _
  refine (Sys2Proof.Laws.decode_half_join _).trans ?_
  rfl

theorem Sys2Proof.Laws.RoundTrip.cXor (rd : CRegIdx) (rs2 : CRegIdx) : Sys2Proof.Laws.RoundTrip.Statement (.cXor rd rs2) := by
  intro _
  refine (Sys2Proof.Laws.decode_half_join _).trans ?_
  rfl

theorem Sys2Proof.Laws.RoundTrip.cOr (rd : CRegIdx) (rs2 : CRegIdx) : Sys2Proof.Laws.RoundTrip.Statement (.cOr rd rs2) := by
  intro _
  refine (Sys2Proof.Laws.decode_half_join _).trans ?_
  rfl

theorem Sys2Proof.Laws.RoundTrip.cAnd (rd : CRegIdx) (rs2 : CRegIdx) : Sys2Proof.Laws.RoundTrip.Statement (.cAnd rd rs2) := by
  intro _
  refine (Sys2Proof.Laws.decode_half_join _).trans ?_
  rfl

theorem Sys2Proof.Laws.RoundTrip.cSubw (rd : CRegIdx) (rs2 : CRegIdx) : Sys2Proof.Laws.RoundTrip.Statement (.cSubw rd rs2) := by
  intro _
  refine (Sys2Proof.Laws.decode_half_join _).trans ?_
  rfl

theorem Sys2Proof.Laws.RoundTrip.cAddw (rd : CRegIdx) (rs2 : CRegIdx) : Sys2Proof.Laws.RoundTrip.Statement (.cAddw rd rs2) := by
  intro _
  refine (Sys2Proof.Laws.decode_half_join _).trans ?_
  rfl

theorem Sys2Proof.Laws.RoundTrip.cReservedQ1 (rd : CRegIdx) (low : BitVec 1) (rs2 : CRegIdx) : Sys2Proof.Laws.RoundTrip.Statement (.cReservedQ1 rd low rs2) := by
  intro _
  refine (Sys2Proof.Laws.decode_half_join _).trans ?_
  rcases (show ∀ b : BitVec 1, b = 0 ∨ b = 1 by decide) low with rfl | rfl <;>
    simp [decodeFields16, decodeQuadrant1, decodeQuadrant1Alu, Fields16.typeCA]

theorem Sys2Proof.Laws.RoundTrip.cJ (imm : BitVec 11) : Sys2Proof.Laws.RoundTrip.Statement (.cJ imm) := by
  intro _
  refine (Sys2Proof.Laws.decode_half_join _).trans ?_
  show Except.ok (Instr.cJ (Fields16.typeCJ imm).immJump) = _
  rw [Fields16.immJump_typeCJ]

theorem Sys2Proof.Laws.RoundTrip.cBeqz (rs1 : CRegIdx) (imm : BitVec 8) : Sys2Proof.Laws.RoundTrip.Statement (.cBeqz rs1 imm) := by
  intro _
  refine (Sys2Proof.Laws.decode_half_join _).trans ?_
  show Except.ok (Instr.cBeqz rs1 (Fields16.typeCBranch 6 rs1 imm).immBranch) = _
  rw [Fields16.immBranch_typeCBranch]

theorem Sys2Proof.Laws.RoundTrip.cBnez (rs1 : CRegIdx) (imm : BitVec 8) : Sys2Proof.Laws.RoundTrip.Statement (.cBnez rs1 imm) := by
  intro _
  refine (Sys2Proof.Laws.decode_half_join _).trans ?_
  show Except.ok (Instr.cBnez rs1 (Fields16.typeCBranch 7 rs1 imm).immBranch) = _
  rw [Fields16.immBranch_typeCBranch]

theorem Sys2Proof.Laws.RoundTrip.cSlli (rd : RegIdx) (shamt : BitVec 6) : Sys2Proof.Laws.RoundTrip.Statement (.cSlli rd shamt) := by
  intro _
  refine (Sys2Proof.Laws.decode_half_join _).trans ?_
  show Except.ok (Instr.cSlli (Fields16.typeCI 2 0 rd shamt).r (Fields16.typeCI 2 0 rd shamt).imm6) = _
  rw [Fields16.r_typeCI, Fields16.imm6_typeCI]

theorem Sys2Proof.Laws.RoundTrip.cFldsp (bits : BitVec 11) : Sys2Proof.Laws.RoundTrip.Statement (.cFldsp bits) := by
  intro _
  refine (Sys2Proof.Laws.decode_half_join _).trans ?_
  show Except.ok (Instr.cFldsp (Fields16.typeAny 2 1 bits).above) = _
  rw [Fields16.above_typeAny]

theorem Sys2Proof.Laws.RoundTrip.cLwsp (rd : RegIdx) (imm : BitVec 6) : Sys2Proof.Laws.RoundTrip.Statement (.cLwsp rd imm) := by
  intro h
  have hne : rd ≠ 0 := of_decide_eq_true h
  refine (Sys2Proof.Laws.decode_half_join _).trans ?_
  show (if (Fields16.typeLwsp rd imm).r = 0 then _ else Except.ok (Instr.cLwsp (Fields16.typeLwsp rd imm).r (Fields16.typeLwsp rd imm).immLwsp)) = _
  rw [Fields16.r_typeLwsp, Fields16.immLwsp_typeLwsp, if_neg hne]

theorem Sys2Proof.Laws.RoundTrip.cLdsp (rd : RegIdx) (imm : BitVec 6) : Sys2Proof.Laws.RoundTrip.Statement (.cLdsp rd imm) := by
  intro h
  have hne : rd ≠ 0 := of_decide_eq_true h
  refine (Sys2Proof.Laws.decode_half_join _).trans ?_
  show (if (Fields16.typeLdsp rd imm).r = 0 then _ else Except.ok (Instr.cLdsp (Fields16.typeLdsp rd imm).r (Fields16.typeLdsp rd imm).immLdsp)) = _
  rw [Fields16.r_typeLdsp, Fields16.immLdsp_typeLdsp, if_neg hne]

theorem Sys2Proof.Laws.RoundTrip.cFsdsp (bits : BitVec 11) : Sys2Proof.Laws.RoundTrip.Statement (.cFsdsp bits) := by
  intro _
  refine (Sys2Proof.Laws.decode_half_join _).trans ?_
  show Except.ok (Instr.cFsdsp (Fields16.typeAny 2 5 bits).above) = _
  rw [Fields16.above_typeAny]

theorem Sys2Proof.Laws.RoundTrip.cSwsp (rs2 : RegIdx) (imm : BitVec 6) : Sys2Proof.Laws.RoundTrip.Statement (.cSwsp rs2 imm) := by
  intro _
  refine (Sys2Proof.Laws.decode_half_join _).trans ?_
  show Except.ok (Instr.cSwsp (Fields16.typeSwsp rs2 imm).r2 (Fields16.typeSwsp rs2 imm).immSwsp) = _
  rw [Fields16.r2_typeSwsp, Fields16.immSwsp_typeSwsp]

theorem Sys2Proof.Laws.RoundTrip.cSdsp (rs2 : RegIdx) (imm : BitVec 6) : Sys2Proof.Laws.RoundTrip.Statement (.cSdsp rs2 imm) := by
  intro _
  refine (Sys2Proof.Laws.decode_half_join _).trans ?_
  show Except.ok (Instr.cSdsp (Fields16.typeSdsp rs2 imm).r2 (Fields16.typeSdsp rs2 imm).immSdsp) = _
  rw [Fields16.r2_typeSdsp, Fields16.immSdsp_typeSdsp]

theorem Sys2Proof.Laws.RoundTrip.cEbreak : Sys2Proof.Laws.RoundTrip.Statement .cEbreak := by
  intro _
  exact (Sys2Proof.Laws.decode_half_join _).trans rfl

theorem Sys2Proof.Laws.RoundTrip.cJalr (rs1 : RegIdx) : Sys2Proof.Laws.RoundTrip.Statement (.cJalr rs1) := by
  intro h
  have hne : rs1 ≠ 0 := of_decide_eq_true h
  refine (Sys2Proof.Laws.decode_half_join _).trans ?_
  show decodeQuadrant2Reg (Fields16.typeCR 1 rs1 0) = _
  simp only [decodeQuadrant2Reg, Fields16.r_typeCR, Fields16.r2_typeCR, if_neg hne]
  rfl

theorem Sys2Proof.Laws.RoundTrip.cJr (rs1 : RegIdx) : Sys2Proof.Laws.RoundTrip.Statement (.cJr rs1) := by
  intro h
  have hne : rs1 ≠ 0 := of_decide_eq_true h
  refine (Sys2Proof.Laws.decode_half_join _).trans ?_
  show decodeQuadrant2Reg (Fields16.typeCR 0 rs1 0) = _
  simp only [decodeQuadrant2Reg, Fields16.r_typeCR, Fields16.r2_typeCR, if_neg hne]
  rfl

theorem Sys2Proof.Laws.RoundTrip.cMv (rd : RegIdx) (rs2 : RegIdx) : Sys2Proof.Laws.RoundTrip.Statement (.cMv rd rs2) := by
  intro h
  have hne : rs2 ≠ 0 := of_decide_eq_true h
  refine (Sys2Proof.Laws.decode_half_join _).trans ?_
  show decodeQuadrant2Reg (Fields16.typeCR 0 rd rs2) = _
  simp only [decodeQuadrant2Reg, Fields16.r_typeCR, Fields16.r2_typeCR, if_neg hne]
  rfl

theorem Sys2Proof.Laws.RoundTrip.cAdd (rd : RegIdx) (rs2 : RegIdx) : Sys2Proof.Laws.RoundTrip.Statement (.cAdd rd rs2) := by
  intro h
  have hne : rs2 ≠ 0 := of_decide_eq_true h
  refine (Sys2Proof.Laws.decode_half_join _).trans ?_
  show decodeQuadrant2Reg (Fields16.typeCR 1 rd rs2) = _
  simp only [decodeQuadrant2Reg, Fields16.r_typeCR, Fields16.r2_typeCR, if_neg hne]
  rfl
end

