-- ==== Sys2Proof/Laws/Step.lean ====
section
/-! SUPPORT. What the fetch unit and a cycle can do, said once (R503, R504). -/

namespace Sys2Proof.Machine

/-- Each cycle takes one entry of the queue of inputs (R520, log entry 7). -/
theorem pollInputs_irqInputs (s : State) : (pollInputs s).2.irqInputs = s.irqInputs.tail := by
  unfold pollInputs
  cases h : s.irqInputs <;> simp [State.drew, h]

@[simp] theorem handleInterrupt_irqInputs (s : State) : (handleInterrupt s).irqInputs = s.irqInputs.tail := by
  have ht : ∀ c (t : State), (takeInterrupt c t).irqInputs = t.irqInputs := by
    intro c t
    unfold takeInterrupt
    split <;> simp [State.setCsr]
  unfold handleInterrupt
  simp only []
  split
  · rw [ht, pollInputs_irqInputs]
  · split
    · rw [ht, pollInputs_irqInputs]
    · rw [pollInputs_irqInputs]

theorem fetch16_leaves (va : Word) (s : State) : (fetch16 va s).Leaves (MemOnly s) := by
  unfold fetch16
  split
  · exact MemOnly.rfl
  · exact Res.Leaves.bind (translateVa_leaves _ _ s) (fun _ h => h) fun _ _ h =>
      Res.Leaves.bind (physRead_leaves _ _ _ _) (fun _ k => h.trans k) fun _ _ k => h.trans k

/-- A fetch changes nothing, but what an undescribed device does when it is read (R108, R504). -/
theorem fetch_leaves (s : State) : (fetch s).Leaves (MemOnly s) := by
  unfold fetch
  refine Res.Leaves.bind (fetch16_leaves _ s) (fun _ h => h) fun p0 t h => ?_
  split
  · exact Res.Leaves.bind (fetch16_leaves _ t) (fun _ k => h.trans k) fun _ _ k => h.trans k
  · exact h

/-- A parcel at an address where translation is off and a memory device answers: its two bytes, little-endian. -/
theorem fetch16_memory {va : Word} {s : State} {base : Nat} {off : Word} (h0 : va.getLsbD 0 = false)
    (ht : s.translating = false) (hr : s.plat.physMap.route va = (.memory base, off)) :
    fetch16 va s = .done (Memory.read s.mem (base + off.toNat + 1) ++ Memory.read s.mem (base + off.toNat)) s := by
  unfold fetch16
  rw [if_neg (by rw [h0]; decide), translateVa_off _ _ ht]
  simp only [Res.bind, physRead, validWidth, hr]
  simp only [Nat.reduceBEq, Bool.or_true, Bool.true_or, if_true, Res.done.injEq, and_true]
  apply BitVec.eq_of_getLsbD_eq
  intro i hi
  simp only [Memory.readLE, BitVec.getLsbD_append, BitVec.getLsbD_or, BitVec.getLsbD_shiftLeft,
    BitVec.getLsbD_setWidth, BitVec.getLsbD_extractLsb']
  interval_cases i <;> simp [-BitVec.getLsbD_eq_getElem]

/-- A step with a next state: the hart ran, and after the interrupt check it fetched an instruction and ran it, or the
fetch raised an exception. -/
theorem step_next {s t : State} (h : step s = .next t) :
    s.halted = .running ∧
      ((∃ bits v i, fetch (handleInterrupt s) = .done bits v ∧ MemOnly (handleInterrupt s) v ∧ decode bits = .ok i ∧
          exec i v = .next t) ∨
        ∃ e tval v, fetch (handleInterrupt s) = .raise e tval v ∧ MemOnly (handleInterrupt s) v ∧
          t = trapEnter (handleInterrupt s).pc e.cause tval v) := by
  have hl := fetch_leaves (handleInterrupt s)
  unfold step stepState at h
  cases hh : s.halted with
  | running =>
    simp only [hh, cycle, fetchAndRun] at h
    refine ⟨rfl, ?_⟩
    cases hf : fetch (handleInterrupt s) with
    | done bits v =>
      rw [hf] at hl
      simp only [hf, decodeAndRun] at h
      cases hd : decode bits with
      | ok i =>
        simp only [hd] at h
        exact .inl ⟨bits, v, i, rfl, hl, hd, h⟩
      | error r => cases r <;> simp [hd, rejectOutcome] at h
    | raise e tval v =>
      rw [hf] at hl
      simp only [hf, Host.Outcome.next.injEq] at h
      exact .inr ⟨e, tval, v, rfl, hl, by rw [← h, MemOnly.pc hl]⟩
    | fatal r => simp [hf] at h
    | refuse r => simp [hf] at h
  | fatal r => simp [hh] at h

end Sys2Proof.Machine
end

