-- ==== Sys2Proof/Machine/Tuple.lean ====
section
/-! DEFINITION. The decoder's result as R171 and R172 of spec/30_encoding.md give it: the tuple
`(op, rd, rs1, rs2, imm, csr)` over one `op` enum that the 16-bit and the 32-bit path share, with 0 in every field the
operation does not use (spec decision D3, log entry 24), and the Execution Unit's one dispatch surface over it. `exec`
dispatches on the rows of the opcode table instead; Laws/Tuple.lean proves that the two are one function (R430). -/

namespace Sys2Proof.Machine

/-- The `op` enum of R171: the operations of the 32-bit rows. -/
inductive Op where
  | lui
  | auipc
  | addi
  | slti
  | sltiu
  | xori
  | ori
  | andi
  | slli
  | srli
  | srai
  | addiw
  | slliw
  | srliw
  | sraiw
  | add
  | sub
  | sll
  | slt
  | sltu
  | xor
  | srl
  | sra
  | or
  | and
  | addw
  | subw
  | sllw
  | srlw
  | sraw
  | jal
  | jalr
  | beq
  | bne
  | blt
  | bge
  | bltu
  | bgeu
  | lb
  | lh
  | lw
  | ld
  | lbu
  | lhu
  | lwu
  | sb
  | sh
  | sw
  | sd
  | mul
  | mulh
  | mulhsu
  | mulhu
  | mulw
  | div
  | divu
  | rem
  | remu
  | divw
  | divuw
  | remw
  | remuw
  | lrW
  | lrD
  | scW
  | scD
  | amoswapW
  | amoaddW
  | amoxorW
  | amoandW
  | amoorW
  | amominW
  | amomaxW
  | amominuW
  | amomaxuW
  | amoswapD
  | amoaddD
  | amoxorD
  | amoandD
  | amoorD
  | amominD
  | amomaxD
  | amominuD
  | amomaxuD
  | csrrw
  | csrrs
  | csrrc
  | csrrwi
  | csrrsi
  | csrrci
  | ecall
  | ebreak
  | uret
  | sret
  | mret
  | wfi
  | sfenceVma
  | fence
  | fenceI
  deriving DecidableEq, Repr

/-- `DecodedInstruction` (R171). -/
structure DecodedInstruction where
  op : Op
  rd : RegIdx
  rs1 : RegIdx
  rs2 : RegIdx
  imm : Word
  csr : CsrNum
  deriving DecidableEq, Repr

/-- The three results of the decoder (R172). -/
inductive Decoded where
  | tuple (d : DecodedInstruction)
  | fatal (r : Fault)
  | refuse (r : Refusal)
  deriving DecidableEq, Repr

end Sys2Proof.Machine

namespace Sys2Proof

open Machine in
/-- The result a row of the opcode table stands for: a compressed row gives the `op` of its 32-bit equivalent with the
operands of spec/47_c_extension.md (R171, R430); the refused rows (R206) and the unassigned ones (R205) give no tuple. -/
def Instr.decoded : Instr → Decoded
  | .lui rd imm => .tuple ⟨.lui, rd, 0, 0, immU imm, 0⟩
  | .auipc rd imm => .tuple ⟨.auipc, rd, 0, 0, immU imm, 0⟩
  | .addi rd rs1 imm => .tuple ⟨.addi, rd, rs1, 0, imm12 imm, 0⟩
  | .slti rd rs1 imm => .tuple ⟨.slti, rd, rs1, 0, imm12 imm, 0⟩
  | .sltiu rd rs1 imm => .tuple ⟨.sltiu, rd, rs1, 0, imm12 imm, 0⟩
  | .xori rd rs1 imm => .tuple ⟨.xori, rd, rs1, 0, imm12 imm, 0⟩
  | .ori rd rs1 imm => .tuple ⟨.ori, rd, rs1, 0, imm12 imm, 0⟩
  | .andi rd rs1 imm => .tuple ⟨.andi, rd, rs1, 0, imm12 imm, 0⟩
  | .slli rd rs1 shamt => .tuple ⟨.slli, rd, rs1, 0, zext shamt, 0⟩
  | .srli rd rs1 shamt => .tuple ⟨.srli, rd, rs1, 0, zext shamt, 0⟩
  | .srai rd rs1 shamt => .tuple ⟨.srai, rd, rs1, 0, zext shamt, 0⟩
  | .addiw rd rs1 imm => .tuple ⟨.addiw, rd, rs1, 0, imm12 imm, 0⟩
  | .slliw rd rs1 shamt => .tuple ⟨.slliw, rd, rs1, 0, zext shamt, 0⟩
  | .srliw rd rs1 shamt => .tuple ⟨.srliw, rd, rs1, 0, zext shamt, 0⟩
  | .sraiw rd rs1 shamt => .tuple ⟨.sraiw, rd, rs1, 0, zext shamt, 0⟩
  | .add rd rs1 rs2 => .tuple ⟨.add, rd, rs1, rs2, 0, 0⟩
  | .sub rd rs1 rs2 => .tuple ⟨.sub, rd, rs1, rs2, 0, 0⟩
  | .sll rd rs1 rs2 => .tuple ⟨.sll, rd, rs1, rs2, 0, 0⟩
  | .slt rd rs1 rs2 => .tuple ⟨.slt, rd, rs1, rs2, 0, 0⟩
  | .sltu rd rs1 rs2 => .tuple ⟨.sltu, rd, rs1, rs2, 0, 0⟩
  | .xor rd rs1 rs2 => .tuple ⟨.xor, rd, rs1, rs2, 0, 0⟩
  | .srl rd rs1 rs2 => .tuple ⟨.srl, rd, rs1, rs2, 0, 0⟩
  | .sra rd rs1 rs2 => .tuple ⟨.sra, rd, rs1, rs2, 0, 0⟩
  | .or rd rs1 rs2 => .tuple ⟨.or, rd, rs1, rs2, 0, 0⟩
  | .and rd rs1 rs2 => .tuple ⟨.and, rd, rs1, rs2, 0, 0⟩
  | .addw rd rs1 rs2 => .tuple ⟨.addw, rd, rs1, rs2, 0, 0⟩
  | .subw rd rs1 rs2 => .tuple ⟨.subw, rd, rs1, rs2, 0, 0⟩
  | .sllw rd rs1 rs2 => .tuple ⟨.sllw, rd, rs1, rs2, 0, 0⟩
  | .srlw rd rs1 rs2 => .tuple ⟨.srlw, rd, rs1, rs2, 0, 0⟩
  | .sraw rd rs1 rs2 => .tuple ⟨.sraw, rd, rs1, rs2, 0, 0⟩
  | .jal rd imm => .tuple ⟨.jal, rd, 0, 0, immJ imm, 0⟩
  | .jalr rd rs1 imm => .tuple ⟨.jalr, rd, rs1, 0, imm12 imm, 0⟩
  | .beq rs1 rs2 imm => .tuple ⟨.beq, 0, rs1, rs2, immB imm, 0⟩
  | .bne rs1 rs2 imm => .tuple ⟨.bne, 0, rs1, rs2, immB imm, 0⟩
  | .blt rs1 rs2 imm => .tuple ⟨.blt, 0, rs1, rs2, immB imm, 0⟩
  | .bge rs1 rs2 imm => .tuple ⟨.bge, 0, rs1, rs2, immB imm, 0⟩
  | .bltu rs1 rs2 imm => .tuple ⟨.bltu, 0, rs1, rs2, immB imm, 0⟩
  | .bgeu rs1 rs2 imm => .tuple ⟨.bgeu, 0, rs1, rs2, immB imm, 0⟩
  | .lb rd rs1 imm => .tuple ⟨.lb, rd, rs1, 0, imm12 imm, 0⟩
  | .lh rd rs1 imm => .tuple ⟨.lh, rd, rs1, 0, imm12 imm, 0⟩
  | .lw rd rs1 imm => .tuple ⟨.lw, rd, rs1, 0, imm12 imm, 0⟩
  | .ld rd rs1 imm => .tuple ⟨.ld, rd, rs1, 0, imm12 imm, 0⟩
  | .lbu rd rs1 imm => .tuple ⟨.lbu, rd, rs1, 0, imm12 imm, 0⟩
  | .lhu rd rs1 imm => .tuple ⟨.lhu, rd, rs1, 0, imm12 imm, 0⟩
  | .lwu rd rs1 imm => .tuple ⟨.lwu, rd, rs1, 0, imm12 imm, 0⟩
  | .sb rs1 rs2 imm => .tuple ⟨.sb, 0, rs1, rs2, imm12 imm, 0⟩
  | .sh rs1 rs2 imm => .tuple ⟨.sh, 0, rs1, rs2, imm12 imm, 0⟩
  | .sw rs1 rs2 imm => .tuple ⟨.sw, 0, rs1, rs2, imm12 imm, 0⟩
  | .sd rs1 rs2 imm => .tuple ⟨.sd, 0, rs1, rs2, imm12 imm, 0⟩
  | .mul rd rs1 rs2 => .tuple ⟨.mul, rd, rs1, rs2, 0, 0⟩
  | .mulh rd rs1 rs2 => .tuple ⟨.mulh, rd, rs1, rs2, 0, 0⟩
  | .mulhsu rd rs1 rs2 => .tuple ⟨.mulhsu, rd, rs1, rs2, 0, 0⟩
  | .mulhu rd rs1 rs2 => .tuple ⟨.mulhu, rd, rs1, rs2, 0, 0⟩
  | .mulw rd rs1 rs2 => .tuple ⟨.mulw, rd, rs1, rs2, 0, 0⟩
  | .div rd rs1 rs2 => .tuple ⟨.div, rd, rs1, rs2, 0, 0⟩
  | .divu rd rs1 rs2 => .tuple ⟨.divu, rd, rs1, rs2, 0, 0⟩
  | .rem rd rs1 rs2 => .tuple ⟨.rem, rd, rs1, rs2, 0, 0⟩
  | .remu rd rs1 rs2 => .tuple ⟨.remu, rd, rs1, rs2, 0, 0⟩
  | .divw rd rs1 rs2 => .tuple ⟨.divw, rd, rs1, rs2, 0, 0⟩
  | .divuw rd rs1 rs2 => .tuple ⟨.divuw, rd, rs1, rs2, 0, 0⟩
  | .remw rd rs1 rs2 => .tuple ⟨.remw, rd, rs1, rs2, 0, 0⟩
  | .remuw rd rs1 rs2 => .tuple ⟨.remuw, rd, rs1, rs2, 0, 0⟩
  | .lrW rd rs1 _ _ => .tuple ⟨.lrW, rd, rs1, 0, 0, 0⟩
  | .lrD rd rs1 _ _ => .tuple ⟨.lrD, rd, rs1, 0, 0, 0⟩
  | .scW rd rs1 rs2 _ _ => .tuple ⟨.scW, rd, rs1, rs2, 0, 0⟩
  | .scD rd rs1 rs2 _ _ => .tuple ⟨.scD, rd, rs1, rs2, 0, 0⟩
  | .amoswapW rd rs1 rs2 _ _ => .tuple ⟨.amoswapW, rd, rs1, rs2, 0, 0⟩
  | .amoaddW rd rs1 rs2 _ _ => .tuple ⟨.amoaddW, rd, rs1, rs2, 0, 0⟩
  | .amoxorW rd rs1 rs2 _ _ => .tuple ⟨.amoxorW, rd, rs1, rs2, 0, 0⟩
  | .amoandW rd rs1 rs2 _ _ => .tuple ⟨.amoandW, rd, rs1, rs2, 0, 0⟩
  | .amoorW rd rs1 rs2 _ _ => .tuple ⟨.amoorW, rd, rs1, rs2, 0, 0⟩
  | .amominW rd rs1 rs2 _ _ => .tuple ⟨.amominW, rd, rs1, rs2, 0, 0⟩
  | .amomaxW rd rs1 rs2 _ _ => .tuple ⟨.amomaxW, rd, rs1, rs2, 0, 0⟩
  | .amominuW rd rs1 rs2 _ _ => .tuple ⟨.amominuW, rd, rs1, rs2, 0, 0⟩
  | .amomaxuW rd rs1 rs2 _ _ => .tuple ⟨.amomaxuW, rd, rs1, rs2, 0, 0⟩
  | .amoswapD rd rs1 rs2 _ _ => .tuple ⟨.amoswapD, rd, rs1, rs2, 0, 0⟩
  | .amoaddD rd rs1 rs2 _ _ => .tuple ⟨.amoaddD, rd, rs1, rs2, 0, 0⟩
  | .amoxorD rd rs1 rs2 _ _ => .tuple ⟨.amoxorD, rd, rs1, rs2, 0, 0⟩
  | .amoandD rd rs1 rs2 _ _ => .tuple ⟨.amoandD, rd, rs1, rs2, 0, 0⟩
  | .amoorD rd rs1 rs2 _ _ => .tuple ⟨.amoorD, rd, rs1, rs2, 0, 0⟩
  | .amominD rd rs1 rs2 _ _ => .tuple ⟨.amominD, rd, rs1, rs2, 0, 0⟩
  | .amomaxD rd rs1 rs2 _ _ => .tuple ⟨.amomaxD, rd, rs1, rs2, 0, 0⟩
  | .amominuD rd rs1 rs2 _ _ => .tuple ⟨.amominuD, rd, rs1, rs2, 0, 0⟩
  | .amomaxuD rd rs1 rs2 _ _ => .tuple ⟨.amomaxuD, rd, rs1, rs2, 0, 0⟩
  | .csrrw rd rs1 csr => .tuple ⟨.csrrw, rd, rs1, 0, 0, csr⟩
  | .csrrs rd rs1 csr => .tuple ⟨.csrrs, rd, rs1, 0, 0, csr⟩
  | .csrrc rd rs1 csr => .tuple ⟨.csrrc, rd, rs1, 0, 0, csr⟩
  | .csrrwi rd uimm csr => .tuple ⟨.csrrwi, rd, 0, 0, zext uimm, csr⟩
  | .csrrsi rd uimm csr => .tuple ⟨.csrrsi, rd, 0, 0, zext uimm, csr⟩
  | .csrrci rd uimm csr => .tuple ⟨.csrrci, rd, 0, 0, zext uimm, csr⟩
  | .ecall => .tuple ⟨.ecall, 0, 0, 0, 0, 0⟩
  | .ebreak => .tuple ⟨.ebreak, 0, 0, 0, 0, 0⟩
  | .uret => .tuple ⟨.uret, 0, 0, 0, 0, 0⟩
  | .sret => .tuple ⟨.sret, 0, 0, 0, 0, 0⟩
  | .mret => .tuple ⟨.mret, 0, 0, 0, 0, 0⟩
  | .wfi => .tuple ⟨.wfi, 0, 0, 0, 0, 0⟩
  | .sfenceVma rs1 rs2 => .tuple ⟨.sfenceVma, 0, rs1, rs2, 0, 0⟩
  | .fence _ _ _ _ _ => .tuple ⟨.fence, 0, 0, 0, 0, 0⟩
  | .fenceI _ _ _ => .tuple ⟨.fenceI, 0, 0, 0, 0, 0⟩
  | .loadFp _ => .refuse .floatingPoint
  | .storeFp _ => .refuse .floatingPoint
  | .fmadd _ => .refuse .floatingPoint
  | .fmsub _ => .refuse .floatingPoint
  | .fnmsub _ => .refuse .floatingPoint
  | .fnmadd _ => .refuse .floatingPoint
  | .opFp _ => .refuse .floatingPoint
  | .cIllegal => .fatal (unassigned .cIllegal)
  | .cAddi4spn rd imm => .tuple ⟨.addi, creg rd, sp, 0, immSpn imm, 0⟩
  | .cFld _ => .refuse .floatingPoint
  | .cLw rd rs1 imm => .tuple ⟨.lw, creg rd, creg rs1, 0, immCWord imm, 0⟩
  | .cLd rd rs1 imm => .tuple ⟨.ld, creg rd, creg rs1, 0, immCDouble imm, 0⟩
  | .cReservedQ0 bits => .fatal (unassigned (.cReservedQ0 bits))
  | .cFsd _ => .refuse .floatingPoint
  | .cSw rs1 rs2 imm => .tuple ⟨.sw, 0, creg rs1, creg rs2, immCWord imm, 0⟩
  | .cSd rs1 rs2 imm => .tuple ⟨.sd, 0, creg rs1, creg rs2, immCDouble imm, 0⟩
  | .cNop imm => .tuple ⟨.addi, x0, x0, 0, imm6 imm, 0⟩
  | .cAddi rd imm => .tuple ⟨.addi, rd, rd, 0, imm6 imm, 0⟩
  | .cAddiw rd imm => .tuple ⟨.addiw, rd, rd, 0, imm6 imm, 0⟩
  | .cLi rd imm => .tuple ⟨.addi, rd, x0, 0, imm6 imm, 0⟩
  | .cAddi16sp imm => .tuple ⟨.addi, sp, sp, 0, imm16sp imm, 0⟩
  | .cLui rd imm => .tuple ⟨.lui, rd, 0, 0, immCLui imm, 0⟩
  | .cSrli rd shamt => .tuple ⟨.srli, creg rd, creg rd, 0, zext shamt, 0⟩
  | .cSrai rd shamt => .tuple ⟨.srai, creg rd, creg rd, 0, zext shamt, 0⟩
  | .cAndi rd imm => .tuple ⟨.andi, creg rd, creg rd, 0, imm6 imm, 0⟩
  | .cSub rd rs2 => .tuple ⟨.sub, creg rd, creg rd, creg rs2, 0, 0⟩
  | .cXor rd rs2 => .tuple ⟨.xor, creg rd, creg rd, creg rs2, 0, 0⟩
  | .cOr rd rs2 => .tuple ⟨.or, creg rd, creg rd, creg rs2, 0, 0⟩
  | .cAnd rd rs2 => .tuple ⟨.and, creg rd, creg rd, creg rs2, 0, 0⟩
  | .cSubw rd rs2 => .tuple ⟨.subw, creg rd, creg rd, creg rs2, 0, 0⟩
  | .cAddw rd rs2 => .tuple ⟨.addw, creg rd, creg rd, creg rs2, 0, 0⟩
  | .cReservedQ1 rd low rs2 => .fatal (unassigned (.cReservedQ1 rd low rs2))
  | .cJ imm => .tuple ⟨.jal, x0, 0, 0, immCJ imm, 0⟩
  | .cBeqz rs1 imm => .tuple ⟨.beq, 0, creg rs1, x0, immCBranch imm, 0⟩
  | .cBnez rs1 imm => .tuple ⟨.bne, 0, creg rs1, x0, immCBranch imm, 0⟩
  | .cSlli rd shamt => .tuple ⟨.slli, rd, rd, 0, zext shamt, 0⟩
  | .cFldsp _ => .refuse .floatingPoint
  | .cLwsp rd imm => .tuple ⟨.lw, rd, sp, 0, immSpWord imm, 0⟩
  | .cLdsp rd imm => .tuple ⟨.ld, rd, sp, 0, immSpDouble imm, 0⟩
  | .cFsdsp _ => .refuse .floatingPoint
  | .cSwsp rs2 imm => .tuple ⟨.sw, 0, sp, rs2, immSpWord imm, 0⟩
  | .cSdsp rs2 imm => .tuple ⟨.sd, 0, sp, rs2, immSpDouble imm, 0⟩
  | .cEbreak => .tuple ⟨.ebreak, 0, 0, 0, 0, 0⟩
  | .cJalr rs1 => .tuple ⟨.jalr, ra, rs1, 0, 0, 0⟩
  | .cJr rs1 => .tuple ⟨.jalr, x0, rs1, 0, 0, 0⟩
  | .cMv rd rs2 => .tuple ⟨.add, rd, x0, rs2, 0, 0⟩
  | .cAdd rd rs2 => .tuple ⟨.add, rd, rd, rs2, 0, 0⟩

end Sys2Proof

namespace Sys2Proof.Machine

/-- `Decode(inst)` (R171, R172, R503 step 3): pure and total. -/
def decodeTuple (b : InstBits) : Decoded :=
  match decode b with
  | .ok i => i.decoded
  | .error (.unknownEncoding bits) => .fatal (.unknownEncoding bits)
  | .error .reservedCompressed => .refuse .reservedCompressed

/-- The one dispatch surface (R171, R430): the rule of the tuple's `op`, with `npc = pc + len`. The 32-bit rows without
a 16-bit form take no `len`. -/
def runTuple (len : Word) (d : DecodedInstruction) (s : State) : Host.Outcome State Fault Refusal :=
  match d.op with
  | .lui => writeReg len d.rd d.imm s
  | .auipc => writeReg len d.rd (s.pc + d.imm) s
  | .addi => regImm len addVal d.rd d.rs1 d.imm s
  | .slti => regImm len sltVal d.rd d.rs1 d.imm s
  | .sltiu => regImm len sltuVal d.rd d.rs1 d.imm s
  | .xori => regImm len xorVal d.rd d.rs1 d.imm s
  | .ori => regImm len orVal d.rd d.rs1 d.imm s
  | .andi => regImm len andVal d.rd d.rs1 d.imm s
  | .slli => regImm len sllVal d.rd d.rs1 d.imm s
  | .srli => regImm len srlVal d.rd d.rs1 d.imm s
  | .srai => regImm len sraVal d.rd d.rs1 d.imm s
  | .addiw => regImm len addwVal d.rd d.rs1 d.imm s
  | .slliw => regImm len sllwVal d.rd d.rs1 d.imm s
  | .srliw => regImm len srlwVal d.rd d.rs1 d.imm s
  | .sraiw => regImm len srawVal d.rd d.rs1 d.imm s
  | .add => regReg len addVal d.rd d.rs1 d.rs2 s
  | .sub => regReg len subVal d.rd d.rs1 d.rs2 s
  | .sll => regReg len sllVal d.rd d.rs1 d.rs2 s
  | .slt => regReg len sltVal d.rd d.rs1 d.rs2 s
  | .sltu => regReg len sltuVal d.rd d.rs1 d.rs2 s
  | .xor => regReg len xorVal d.rd d.rs1 d.rs2 s
  | .srl => regReg len srlVal d.rd d.rs1 d.rs2 s
  | .sra => regReg len sraVal d.rd d.rs1 d.rs2 s
  | .or => regReg len orVal d.rd d.rs1 d.rs2 s
  | .and => regReg len andVal d.rd d.rs1 d.rs2 s
  | .addw => regReg len addwVal d.rd d.rs1 d.rs2 s
  | .subw => regReg len subwVal d.rd d.rs1 d.rs2 s
  | .sllw => regReg len sllwVal d.rd d.rs1 d.rs2 s
  | .srlw => regReg len srlwVal d.rd d.rs1 d.rs2 s
  | .sraw => regReg len srawVal d.rd d.rs1 d.rs2 s
  | .jal => jumpLink len d.rd (s.pc + d.imm) s
  | .jalr => jumpLink len d.rd (s.getX d.rs1 + d.imm) s
  | .beq => branch len (s.getX d.rs1 == s.getX d.rs2) d.imm s
  | .bne => branch len (s.getX d.rs1 != s.getX d.rs2) d.imm s
  | .blt => branch len (decide ((s.getX d.rs1).toInt < (s.getX d.rs2).toInt)) d.imm s
  | .bge => branch len (decide ((s.getX d.rs2).toInt ≤ (s.getX d.rs1).toInt)) d.imm s
  | .bltu => branch len (decide ((s.getX d.rs1).toNat < (s.getX d.rs2).toNat)) d.imm s
  | .bgeu => branch len (decide ((s.getX d.rs2).toNat ≤ (s.getX d.rs1).toNat)) d.imm s
  | .lb => load len 1 (sextBytes 1) d.rd (s.getX d.rs1 + d.imm) s
  | .lh => load len 2 (sextBytes 2) d.rd (s.getX d.rs1 + d.imm) s
  | .lw => load len 4 (sextBytes 4) d.rd (s.getX d.rs1 + d.imm) s
  | .ld => load len 8 (sextBytes 8) d.rd (s.getX d.rs1 + d.imm) s
  | .lbu => load len 1 (zextBytes 1) d.rd (s.getX d.rs1 + d.imm) s
  | .lhu => load len 2 (zextBytes 2) d.rd (s.getX d.rs1 + d.imm) s
  | .lwu => load len 4 (zextBytes 4) d.rd (s.getX d.rs1 + d.imm) s
  | .sb => store len 1 (s.getX d.rs1 + d.imm) (s.getX d.rs2) s
  | .sh => store len 2 (s.getX d.rs1 + d.imm) (s.getX d.rs2) s
  | .sw => store len 4 (s.getX d.rs1 + d.imm) (s.getX d.rs2) s
  | .sd => store len 8 (s.getX d.rs1 + d.imm) (s.getX d.rs2) s
  | .mul => regReg len mulVal d.rd d.rs1 d.rs2 s
  | .mulh => regReg len mulhVal d.rd d.rs1 d.rs2 s
  | .mulhsu => regReg len mulhsuVal d.rd d.rs1 d.rs2 s
  | .mulhu => regReg len mulhuVal d.rd d.rs1 d.rs2 s
  | .mulw => regReg len mulwVal d.rd d.rs1 d.rs2 s
  | .div => regReg len divVal d.rd d.rs1 d.rs2 s
  | .divu => regReg len divuVal d.rd d.rs1 d.rs2 s
  | .rem => regReg len remVal d.rd d.rs1 d.rs2 s
  | .remu => regReg len remuVal d.rd d.rs1 d.rs2 s
  | .divw => regReg len divwVal d.rd d.rs1 d.rs2 s
  | .divuw => regReg len divuwVal d.rd d.rs1 d.rs2 s
  | .remw => regReg len remwVal d.rd d.rs1 d.rs2 s
  | .remuw => regReg len remuwVal d.rd d.rs1 d.rs2 s
  | .lrW => loadReserve .word d.rd (s.getX d.rs1) s
  | .lrD => loadReserve .double d.rd (s.getX d.rs1) s
  | .scW => storeCond .word d.rd (s.getX d.rs1) (s.getX d.rs2) s
  | .scD => storeCond .double d.rd (s.getX d.rs1) (s.getX d.rs2) s
  | .amoswapW => amo .word .swap d.rd (s.getX d.rs1) (s.getX d.rs2) s
  | .amoaddW => amo .word .add d.rd (s.getX d.rs1) (s.getX d.rs2) s
  | .amoxorW => amo .word .xor d.rd (s.getX d.rs1) (s.getX d.rs2) s
  | .amoandW => amo .word .and d.rd (s.getX d.rs1) (s.getX d.rs2) s
  | .amoorW => amo .word .or d.rd (s.getX d.rs1) (s.getX d.rs2) s
  | .amominW => amo .word .min d.rd (s.getX d.rs1) (s.getX d.rs2) s
  | .amomaxW => amo .word .max d.rd (s.getX d.rs1) (s.getX d.rs2) s
  | .amominuW => amo .word .minu d.rd (s.getX d.rs1) (s.getX d.rs2) s
  | .amomaxuW => amo .word .maxu d.rd (s.getX d.rs1) (s.getX d.rs2) s
  | .amoswapD => amo .double .swap d.rd (s.getX d.rs1) (s.getX d.rs2) s
  | .amoaddD => amo .double .add d.rd (s.getX d.rs1) (s.getX d.rs2) s
  | .amoxorD => amo .double .xor d.rd (s.getX d.rs1) (s.getX d.rs2) s
  | .amoandD => amo .double .and d.rd (s.getX d.rs1) (s.getX d.rs2) s
  | .amoorD => amo .double .or d.rd (s.getX d.rs1) (s.getX d.rs2) s
  | .amominD => amo .double .min d.rd (s.getX d.rs1) (s.getX d.rs2) s
  | .amomaxD => amo .double .max d.rd (s.getX d.rs1) (s.getX d.rs2) s
  | .amominuD => amo .double .minu d.rd (s.getX d.rs1) (s.getX d.rs2) s
  | .amomaxuD => amo .double .maxu d.rd (s.getX d.rs1) (s.getX d.rs2) s
  | .csrrw => csrAccess d.csr (s.getX d.rs1) .write true d.rd s
  | .csrrs => csrAccess d.csr (s.getX d.rs1) .set (d.rs1 != 0) d.rd s
  | .csrrc => csrAccess d.csr (s.getX d.rs1) .clear (d.rs1 != 0) d.rd s
  | .csrrwi => csrAccess d.csr d.imm .write true d.rd s
  | .csrrsi => csrAccess d.csr d.imm .set (d.imm != 0) d.rd s
  | .csrrci => csrAccess d.csr d.imm .clear (d.imm != 0) d.rd s
  | .ecall => (Res.raise (ecallCode s.priv) 0 s).finish
  | .ebreak => (Res.raise .breakpoint 0 s).finish
  | .uret => (trapExit .uret s).finish
  | .sret => (trapExit .sret s).finish
  | .mret => (trapExit .mret s).finish
  | .wfi => nop len s
  | .sfenceVma => nop len s
  | .fence => nop len s
  | .fenceI => nop len s

/-- Executing a decoder's result: a tuple runs, the two others end the cycle (R172, R503). -/
def runDecoded (len : Word) (d : Decoded) (s : State) : Host.Outcome State Fault Refusal :=
  match d with
  | .tuple d => runTuple len d s
  | .fatal r => .fault r
  | .refuse r => .refused r

end Sys2Proof.Machine
end

