-- ==== Sys2Proof/Laws/Tuple.lean ====
section
/-! SUPPORT. The decoder's tuple (R171, R172, R430): the rows of `exec` and the one dispatch surface are one function. -/

namespace Sys2Proof.Machine

/-- A zero immediate field is a zero immediate of the tuple (R180, R391). -/
theorem zext_ne_zero (u : BitVec 5) : (zext u != 0) = (u != 0) := by
  revert u
  decide

/-- Every row does what the rule of its tuple's `op` does, with `npc = pc + ilen`: a compressed instruction differs from
its 32-bit equivalent in nothing else (R430). -/
theorem exec_eq_runDecoded (i : Instr) (s : State) : exec i s = runDecoded (BitVec.ofNat 64 i.ilen) i.decoded s := by
  cases i
  case csrrsi rd u a =>
    simp only [exec, execCsrrsi, Instr.decoded, runDecoded, runTuple, zext_ne_zero]
  case csrrci rd u a =>
    simp only [exec, execCsrrci, Instr.decoded, runDecoded, runTuple, zext_ne_zero]
  case cJalr r => exact congrArg (jumpLink ilen2 ra · s) (BitVec.add_zero (s.getX r)).symm
  case cJr r => exact congrArg (jumpLink ilen2 x0 · s) (BitVec.add_zero (s.getX r)).symm
  all_goals rfl

/-- Steps 3 and 4 of R503 through the tuple. -/
theorem decodeAndRun_eq_runDecoded {b : InstBits} {i : Instr} (h : decode b = .ok i) (s : State) :
    decodeAndRun b s = runDecoded (BitVec.ofNat 64 i.ilen) (decodeTuple b) s := by
  simp only [decodeAndRun, decodeTuple, h, exec_eq_runDecoded]

/-- A field of the tuple that FENCE and FENCE.I do not use is 0, whatever the word holds there (R171, R192). -/
theorem decoded_fence (fm pred succ : BitVec 4) (rs1 rd : RegIdx) :
    (Instr.fence fm pred succ rs1 rd).decoded = .tuple ⟨.fence, 0, 0, 0, 0, 0⟩ := rfl

theorem decoded_fenceI (imm : BitVec 12) (rs1 rd : RegIdx) :
    (Instr.fenceI imm rs1 rd).decoded = .tuple ⟨.fenceI, 0, 0, 0, 0, 0⟩ := rfl

end Sys2Proof.Machine
end

