-- ==== Sys2Proof/Tests/Slice0.lean ====
section
/-! SUPPORT. The model's own tests. Expected results are those of spec/95_test_vectors.md (its worked examples E1 to E6
and the rows of its sections 1 to 9), never the model's own answers; every test is of one word or one step. After them,
for every statement with hypotheses, witnesses that meet them. -/

namespace Sys2Proof.Tests

open Sys2Proof Sys2Proof.Machine Sys2Proof.Claims

/-! ## Terms no encoding stands for -/

theorem test_illformed_cAddi4spn_zero : (Instr.cAddi4spn 1 0).wf = false := by decide
theorem test_illformed_cAddi_x0 : (Instr.cAddi 0 1).wf = false := by decide
theorem test_illformed_cAddiw_x0 : (Instr.cAddiw 0 1).wf = false := by decide
theorem test_illformed_cAddi16sp_zero : (Instr.cAddi16sp 0).wf = false := by decide
theorem test_illformed_cLui_x2 : (Instr.cLui 2 1).wf = false := by decide
theorem test_illformed_cLui_zero : (Instr.cLui 5 0).wf = false := by decide
theorem test_illformed_cLwsp_x0 : (Instr.cLwsp 0 1).wf = false := by decide
theorem test_illformed_cLdsp_x0 : (Instr.cLdsp 0 1).wf = false := by decide
theorem test_illformed_cJr_x0 : (Instr.cJr 0).wf = false := by decide
theorem test_illformed_cJalr_x0 : (Instr.cJalr 0).wf = false := by decide
theorem test_illformed_cMv_x0 : (Instr.cMv 5 0).wf = false := by decide
theorem test_illformed_cAdd_x0 : (Instr.cAdd 5 0).wf = false := by decide

/-! ## Decoding: the words of spec/95 section 1, one for every constructor -/

/-- The word decodes to the instruction. -/
def decodesTo (w : InstBits) (i : Instr) : Bool :=
  match decode w with
  | .ok j => j == i
  | .error _ => false

def decodesAll (l : List (InstBits × Instr)) : Bool := l.all fun p => decodesTo p.1 p.2

/-- The word is an unknown encoding. -/
def unknown (w : InstBits) : Bool :=
  match decode w with
  | .ok _ => false
  | .error (.unknownEncoding _) => true
  | .error .reservedCompressed => false

/-- The parcel is a reserved compressed form. -/
def reserved (p : BitVec 16) : Bool :=
  match decode (.half p) with
  | .ok _ => false
  | .error (.unknownEncoding _) => false
  | .error .reservedCompressed => true

theorem test_decode_alu_1 : decodesAll [
    (.full 0x123452B7, .lui 5 0x12345),
    (.full 0xFFFFF297, .auipc 5 0xFFFFF),
    (.full 0x00100093, .addi 1 0 1),
    (.full 0xFFF32293, .slti 5 6 0xFFF),
    (.full 0xFFF33293, .sltiu 5 6 0xFFF),
    (.full 0xFFF34293, .xori 5 6 0xFFF),
    (.full 0x7FF36293, .ori 5 6 0x7FF),
    (.full 0x00F37293, .andi 5 6 0xF),
    (.full 0x03F31293, .slli 5 6 0x3F),
    (.full 0x02035293, .srli 5 6 0x20),
    (.full 0x40135293, .srai 5 6 1),
    (.full 0x007302B3, .add 5 6 7)] = true := by decide

theorem test_decode_alu_2 : decodesAll [
    (.full 0x407302B3, .sub 5 6 7),
    (.full 0x007312B3, .sll 5 6 7),
    (.full 0x007322B3, .slt 5 6 7),
    (.full 0x007332B3, .sltu 5 6 7),
    (.full 0x007342B3, .xor 5 6 7),
    (.full 0x007352B3, .srl 5 6 7),
    (.full 0x407352B3, .sra 5 6 7),
    (.full 0x007362B3, .or 5 6 7),
    (.full 0x007372B3, .and 5 6 7),
    (.full 0xFFF3029B, .addiw 5 6 0xFFF),
    (.full 0x01F3129B, .slliw 5 6 0x1F),
    (.full 0x0013529B, .srliw 5 6 1)] = true := by decide

theorem test_decode_alu_3 : decodesAll [
    (.full 0x4013529B, .sraiw 5 6 1),
    (.full 0x007302BB, .addw 5 6 7),
    (.full 0x407302BB, .subw 5 6 7),
    (.full 0x007312BB, .sllw 5 6 7),
    (.full 0x007352BB, .srlw 5 6 7),
    (.full 0x407352BB, .sraw 5 6 7)] = true := by decide

theorem test_decode_control : decodesAll [
    (.full 0xFFFFF0EF, .jal 1 0xFFFFF),
    (.full 0xFFC280E7, .jalr 1 5 0xFFC),
    (.full 0x80628063, .beq 5 6 0x800),
    (.full 0x7E629FE3, .bne 5 6 0x7FF),
    (.full 0x0062C463, .blt 5 6 4),
    (.full 0x0062D463, .bge 5 6 4),
    (.full 0x0062E463, .bltu 5 6 4),
    (.full 0x0062F463, .bgeu 5 6 4)] = true := by decide

theorem test_decode_memory : decodesAll [
    (.full 0xFFF30283, .lb 5 6 0xFFF),
    (.full 0x00231283, .lh 5 6 2),
    (.full 0x00432283, .lw 5 6 4),
    (.full 0x00833283, .ld 5 6 8),
    (.full 0x00034283, .lbu 5 6 0),
    (.full 0x00035283, .lhu 5 6 0),
    (.full 0x7FF36283, .lwu 5 6 0x7FF),
    (.full 0x80730023, .sb 6 7 0x800),
    (.full 0x00731123, .sh 6 7 2),
    (.full 0x00732223, .sw 6 7 4),
    (.full 0x7E733FA3, .sd 6 7 0x7FF)] = true := by decide

theorem test_decode_muldiv_1 : decodesAll [
    (.full 0x027302B3, .mul 5 6 7),
    (.full 0x027312B3, .mulh 5 6 7),
    (.full 0x027322B3, .mulhsu 5 6 7),
    (.full 0x027332B3, .mulhu 5 6 7),
    (.full 0x027342B3, .div 5 6 7),
    (.full 0x027352B3, .divu 5 6 7),
    (.full 0x027362B3, .rem 5 6 7),
    (.full 0x027372B3, .remu 5 6 7),
    (.full 0x027302BB, .mulw 5 6 7),
    (.full 0x027342BB, .divw 5 6 7),
    (.full 0x027352BB, .divuw 5 6 7),
    (.full 0x027362BB, .remw 5 6 7)] = true := by decide

theorem test_decode_muldiv_2 : decodesAll [
    (.full 0x027372BB, .remuw 5 6 7)] = true := by decide

theorem test_decode_atomic_1 : decodesAll [
    (.full 0x100322AF, .lrW 5 6 0 0),
    (.full 0x140332AF, .lrD 5 6 1 0),
    (.full 0x187322AF, .scW 5 6 7 0 0),
    (.full 0x1A7332AF, .scD 5 6 7 0 1),
    (.full 0x087322AF, .amoswapW 5 6 7 0 0),
    (.full 0x007322AF, .amoaddW 5 6 7 0 0),
    (.full 0x207322AF, .amoxorW 5 6 7 0 0),
    (.full 0x607322AF, .amoandW 5 6 7 0 0),
    (.full 0x407322AF, .amoorW 5 6 7 0 0),
    (.full 0x807322AF, .amominW 5 6 7 0 0),
    (.full 0xA07322AF, .amomaxW 5 6 7 0 0),
    (.full 0xC07322AF, .amominuW 5 6 7 0 0)] = true := by decide

theorem test_decode_atomic_2 : decodesAll [
    (.full 0xE07322AF, .amomaxuW 5 6 7 0 0),
    (.full 0x087332AF, .amoswapD 5 6 7 0 0),
    (.full 0x007332AF, .amoaddD 5 6 7 0 0),
    (.full 0x207332AF, .amoxorD 5 6 7 0 0),
    (.full 0x607332AF, .amoandD 5 6 7 0 0),
    (.full 0x407332AF, .amoorD 5 6 7 0 0),
    (.full 0x807332AF, .amominD 5 6 7 0 0),
    (.full 0xA07332AF, .amomaxD 5 6 7 0 0),
    (.full 0xC07332AF, .amominuD 5 6 7 0 0),
    (.full 0xE67332AF, .amomaxuD 5 6 7 1 1)] = true := by decide

theorem test_decode_csr_system_1 : decodesAll [
    (.full 0x340312F3, .csrrw 5 6 0x340),
    (.full 0x100322F3, .csrrs 5 6 0x100),
    (.full 0x304332F3, .csrrc 5 6 0x304),
    (.full 0x180FD2F3, .csrrwi 5 0x1F 0x180),
    (.full 0x300462F3, .csrrsi 5 8 0x300),
    (.full 0x3440F2F3, .csrrci 5 1 0x344),
    (.full 0x0330000F, .fence 0 3 3 0 0),
    (.full 0x0000100F, .fenceI 0 0 0),
    (.full 0x00000073, .ecall),
    (.full 0x00100073, .ebreak),
    (.full 0x00200073, .uret),
    (.full 0x10200073, .sret)] = true := by decide

theorem test_decode_csr_system_2 : decodesAll [
    (.full 0x30200073, .mret),
    (.full 0x10500073, .wfi),
    (.full 0x12628073, .sfenceVma 5 6)] = true := by decide

theorem test_decode_compressed_1 : decodesAll [
    (.half 0x0020, .cAddi4spn 0 2),
    (.half 0x4124, .cLw 1 2 0x10),
    (.half 0x6144, .cLd 1 2 0x10),
    (.half 0xC124, .cSw 2 1 0x10),
    (.half 0xE144, .cSd 2 1 0x10),
    (.half 0x0001, .cNop 0),
    (.half 0x12FD, .cAddi 5 0x3F),
    (.half 0x2285, .cAddiw 5 1),
    (.half 0x52FD, .cLi 5 0x3F),
    (.half 0x6141, .cAddi16sp 1),
    (.half 0x72FD, .cLui 5 0x3F),
    (.half 0x9001, .cSrli 0 0x20)] = true := by decide

theorem test_decode_compressed_2 : decodesAll [
    (.half 0x9485, .cSrai 1 0x21),
    (.half 0x997D, .cAndi 2 0x3F),
    (.half 0x8C05, .cSub 0 1),
    (.half 0x8C25, .cXor 0 1),
    (.half 0x8C45, .cOr 0 1),
    (.half 0x8C65, .cAnd 0 1),
    (.half 0x9C05, .cSubw 0 1),
    (.half 0x9C25, .cAddw 0 1),
    (.half 0xBFFD, .cJ 0x7FF),
    (.half 0xDC7D, .cBeqz 0 0xFF),
    (.half 0xE389, .cBnez 7 1),
    (.half 0x1282, .cSlli 5 0x20)] = true := by decide

theorem test_decode_compressed_3 : decodesAll [
    (.half 0x428A, .cLwsp 5 0x20),
    (.half 0x6292, .cLdsp 5 0x20),
    (.half 0xC11A, .cSwsp 6 0x20),
    (.half 0xE21A, .cSdsp 6 0x20),
    (.half 0x8282, .cJr 5),
    (.half 0x9282, .cJalr 5),
    (.half 0x829A, .cMv 5 6),
    (.half 0x929A, .cAdd 5 6),
    (.half 0x9002, .cEbreak)] = true := by decide

/-- Sections 8 and 9: the refused and the unassigned rows, fields as R206 and R432 to R474 lay them out. -/
theorem test_decode_refused : decodesAll [
    (.full 0x00002007, .loadFp 0x40),
    (.full 0x00003027, .storeFp 0x60),
    (.full 0x00007043, .fmadd 0xE0),
    (.full 0x00007047, .fmsub 0xE0),
    (.full 0x0000704B, .fnmsub 0xE0),
    (.full 0x0000704F, .fnmadd 0xE0),
    (.full 0x02007053, .opFp 0x400E0),
    (.half 0x2000, .cFld 0),
    (.half 0xA000, .cFsd 0),
    (.half 0x2002, .cFldsp 0),
    (.half 0xA002, .cFsdsp 0)] = true := by decide

theorem test_decode_unassigned : decodesAll [
    (.half 0x0000, .cIllegal),
    (.half 0x8000, .cReservedQ0 0),
    (.half 0x9C41, .cReservedQ1 0 0 0),
    (.half 0x9C61, .cReservedQ1 0 1 0)] = true := by decide

theorem test_decode_unknown : [0xFFFFFFFF, 0x0000006B, 0x04000033, 0x04001013, 0x0200101B, 0x00007003, 0x00002063,
    0x00001067, 0x0000002F, 0x2800202F, 0x1010202F, 0x000000F3, 0x7B200073, 0x22000073].all
    (fun w => unknown (.full w)) = true := by decide

theorem test_decode_reserved : [0x0004, 0x2005, 0x6101, 0x6281, 0x4002, 0x6002, 0x8002].all reserved = true := by
  decide

/-- The hints of section 8 are ordinary instructions (R217). -/
theorem test_decode_hints : decodesAll [
    (.half 0x0005, .cNop 1),
    (.half 0x4015, .cLi 0 5),
    (.half 0x6005, .cLui 0 1),
    (.half 0x801A, .cMv 0 6),
    (.half 0x000E, .cSlli 0 3)] = true := by decide

/-- The numbering of spec/opcode_table.json, for a parcel and for a full word. -/
theorem test_table_word : decodeTableWord 16 0x4144 = some (.cLw 1 2 1) ∧
    decodeTableWord 32 0x00100093 = some (.addi 1 0 1) := by decide

/-- The first parcel lies at the lower address, each parcel little-endian (R110, R170). -/
theorem test_decode_bytes : decodeBytes [0x93, 0x00, 0x10, 0x00, 0x01] = .ok (.addi 1 0 1, [0x01]) := by decide

/-! ## The decoder's tuple: the table of spec/95 section 1 (R171) -/

def tuplesTo (l : List (InstBits × DecodedInstruction)) : Bool := l.all fun p => decodeTuple p.1 == .tuple p.2

theorem test_tuples_1 : tuplesTo [
    (.full 0x123452B7, ⟨.lui, 5, 0, 0, 0x12345000, 0⟩),
    (.full 0xFFFFF297, ⟨.auipc, 5, 0, 0, 0xFFFFFFFFFFFFF000, 0⟩),
    (.full 0xFFFFF0EF, ⟨.jal, 1, 0, 0, 0xFFFFFFFFFFFFFFFE, 0⟩),
    (.full 0xFFC280E7, ⟨.jalr, 1, 5, 0, 0xFFFFFFFFFFFFFFFC, 0⟩),
    (.full 0x80628063, ⟨.beq, 0, 5, 6, 0xFFFFFFFFFFFFF000, 0⟩),
    (.full 0x7E629FE3, ⟨.bne, 0, 5, 6, 4094, 0⟩),
    (.full 0x0062C463, ⟨.blt, 0, 5, 6, 8, 0⟩),
    (.full 0x0062D463, ⟨.bge, 0, 5, 6, 8, 0⟩),
    (.full 0x0062E463, ⟨.bltu, 0, 5, 6, 8, 0⟩),
    (.full 0x0062F463, ⟨.bgeu, 0, 5, 6, 8, 0⟩),
    (.full 0xFFF30283, ⟨.lb, 5, 6, 0, 0xFFFFFFFFFFFFFFFF, 0⟩),
    (.full 0x00231283, ⟨.lh, 5, 6, 0, 2, 0⟩),
    (.full 0x00432283, ⟨.lw, 5, 6, 0, 4, 0⟩),
    (.full 0x00833283, ⟨.ld, 5, 6, 0, 8, 0⟩)] = true := by decide

theorem test_tuples_2 : tuplesTo [
    (.full 0x00034283, ⟨.lbu, 5, 6, 0, 0, 0⟩),
    (.full 0x00035283, ⟨.lhu, 5, 6, 0, 0, 0⟩),
    (.full 0x7FF36283, ⟨.lwu, 5, 6, 0, 2047, 0⟩),
    (.full 0x80730023, ⟨.sb, 0, 6, 7, 0xFFFFFFFFFFFFF800, 0⟩),
    (.full 0x00731123, ⟨.sh, 0, 6, 7, 2, 0⟩),
    (.full 0x00732223, ⟨.sw, 0, 6, 7, 4, 0⟩),
    (.full 0x7E733FA3, ⟨.sd, 0, 6, 7, 2047, 0⟩),
    (.full 0x00100093, ⟨.addi, 1, 0, 0, 1, 0⟩),
    (.full 0xFFF32293, ⟨.slti, 5, 6, 0, 0xFFFFFFFFFFFFFFFF, 0⟩),
    (.full 0xFFF33293, ⟨.sltiu, 5, 6, 0, 0xFFFFFFFFFFFFFFFF, 0⟩),
    (.full 0xFFF34293, ⟨.xori, 5, 6, 0, 0xFFFFFFFFFFFFFFFF, 0⟩),
    (.full 0x7FF36293, ⟨.ori, 5, 6, 0, 2047, 0⟩),
    (.full 0x00F37293, ⟨.andi, 5, 6, 0, 15, 0⟩),
    (.full 0x03F31293, ⟨.slli, 5, 6, 0, 63, 0⟩)] = true := by decide

theorem test_tuples_3 : tuplesTo [
    (.full 0x02035293, ⟨.srli, 5, 6, 0, 32, 0⟩),
    (.full 0x40135293, ⟨.srai, 5, 6, 0, 1, 0⟩),
    (.full 0x007302B3, ⟨.add, 5, 6, 7, 0, 0⟩),
    (.full 0x407302B3, ⟨.sub, 5, 6, 7, 0, 0⟩),
    (.full 0x007312B3, ⟨.sll, 5, 6, 7, 0, 0⟩),
    (.full 0x007322B3, ⟨.slt, 5, 6, 7, 0, 0⟩),
    (.full 0x007332B3, ⟨.sltu, 5, 6, 7, 0, 0⟩),
    (.full 0x007342B3, ⟨.xor, 5, 6, 7, 0, 0⟩),
    (.full 0x007352B3, ⟨.srl, 5, 6, 7, 0, 0⟩),
    (.full 0x407352B3, ⟨.sra, 5, 6, 7, 0, 0⟩),
    (.full 0x007362B3, ⟨.or, 5, 6, 7, 0, 0⟩),
    (.full 0x007372B3, ⟨.and, 5, 6, 7, 0, 0⟩),
    (.full 0xFFF3029B, ⟨.addiw, 5, 6, 0, 0xFFFFFFFFFFFFFFFF, 0⟩),
    (.full 0x01F3129B, ⟨.slliw, 5, 6, 0, 31, 0⟩)] = true := by decide

theorem test_tuples_4 : tuplesTo [
    (.full 0x0013529B, ⟨.srliw, 5, 6, 0, 1, 0⟩),
    (.full 0x4013529B, ⟨.sraiw, 5, 6, 0, 1, 0⟩),
    (.full 0x007302BB, ⟨.addw, 5, 6, 7, 0, 0⟩),
    (.full 0x407302BB, ⟨.subw, 5, 6, 7, 0, 0⟩),
    (.full 0x007312BB, ⟨.sllw, 5, 6, 7, 0, 0⟩),
    (.full 0x007352BB, ⟨.srlw, 5, 6, 7, 0, 0⟩),
    (.full 0x407352BB, ⟨.sraw, 5, 6, 7, 0, 0⟩),
    (.full 0x027302B3, ⟨.mul, 5, 6, 7, 0, 0⟩),
    (.full 0x027312B3, ⟨.mulh, 5, 6, 7, 0, 0⟩),
    (.full 0x027322B3, ⟨.mulhsu, 5, 6, 7, 0, 0⟩),
    (.full 0x027332B3, ⟨.mulhu, 5, 6, 7, 0, 0⟩),
    (.full 0x027342B3, ⟨.div, 5, 6, 7, 0, 0⟩),
    (.full 0x027352B3, ⟨.divu, 5, 6, 7, 0, 0⟩),
    (.full 0x027362B3, ⟨.rem, 5, 6, 7, 0, 0⟩)] = true := by decide

theorem test_tuples_5 : tuplesTo [
    (.full 0x027372B3, ⟨.remu, 5, 6, 7, 0, 0⟩),
    (.full 0x027302BB, ⟨.mulw, 5, 6, 7, 0, 0⟩),
    (.full 0x027342BB, ⟨.divw, 5, 6, 7, 0, 0⟩),
    (.full 0x027352BB, ⟨.divuw, 5, 6, 7, 0, 0⟩),
    (.full 0x027362BB, ⟨.remw, 5, 6, 7, 0, 0⟩),
    (.full 0x027372BB, ⟨.remuw, 5, 6, 7, 0, 0⟩),
    (.full 0x100322AF, ⟨.lrW, 5, 6, 0, 0, 0⟩),
    (.full 0x140332AF, ⟨.lrD, 5, 6, 0, 0, 0⟩),
    (.full 0x187322AF, ⟨.scW, 5, 6, 7, 0, 0⟩),
    (.full 0x1A7332AF, ⟨.scD, 5, 6, 7, 0, 0⟩),
    (.full 0x087322AF, ⟨.amoswapW, 5, 6, 7, 0, 0⟩),
    (.full 0x007322AF, ⟨.amoaddW, 5, 6, 7, 0, 0⟩),
    (.full 0x207322AF, ⟨.amoxorW, 5, 6, 7, 0, 0⟩),
    (.full 0x607322AF, ⟨.amoandW, 5, 6, 7, 0, 0⟩)] = true := by decide

theorem test_tuples_6 : tuplesTo [
    (.full 0x407322AF, ⟨.amoorW, 5, 6, 7, 0, 0⟩),
    (.full 0x807322AF, ⟨.amominW, 5, 6, 7, 0, 0⟩),
    (.full 0xA07322AF, ⟨.amomaxW, 5, 6, 7, 0, 0⟩),
    (.full 0xC07322AF, ⟨.amominuW, 5, 6, 7, 0, 0⟩),
    (.full 0xE07322AF, ⟨.amomaxuW, 5, 6, 7, 0, 0⟩),
    (.full 0x087332AF, ⟨.amoswapD, 5, 6, 7, 0, 0⟩),
    (.full 0x007332AF, ⟨.amoaddD, 5, 6, 7, 0, 0⟩),
    (.full 0x207332AF, ⟨.amoxorD, 5, 6, 7, 0, 0⟩),
    (.full 0x607332AF, ⟨.amoandD, 5, 6, 7, 0, 0⟩),
    (.full 0x407332AF, ⟨.amoorD, 5, 6, 7, 0, 0⟩),
    (.full 0x807332AF, ⟨.amominD, 5, 6, 7, 0, 0⟩),
    (.full 0xA07332AF, ⟨.amomaxD, 5, 6, 7, 0, 0⟩),
    (.full 0xC07332AF, ⟨.amominuD, 5, 6, 7, 0, 0⟩),
    (.full 0xE67332AF, ⟨.amomaxuD, 5, 6, 7, 0, 0⟩)] = true := by decide

theorem test_tuples_7 : tuplesTo [
    (.full 0x340312F3, ⟨.csrrw, 5, 6, 0, 0, 0x340⟩),
    (.full 0x100322F3, ⟨.csrrs, 5, 6, 0, 0, 0x100⟩),
    (.full 0x304332F3, ⟨.csrrc, 5, 6, 0, 0, 0x304⟩),
    (.full 0x180FD2F3, ⟨.csrrwi, 5, 0, 0, 31, 0x180⟩),
    (.full 0x300462F3, ⟨.csrrsi, 5, 0, 0, 8, 0x300⟩),
    (.full 0x3440F2F3, ⟨.csrrci, 5, 0, 0, 1, 0x344⟩),
    (.full 0x0330000F, ⟨.fence, 0, 0, 0, 0, 0⟩),
    (.full 0x0000100F, ⟨.fenceI, 0, 0, 0, 0, 0⟩),
    (.full 0x00000073, ⟨.ecall, 0, 0, 0, 0, 0⟩),
    (.full 0x00100073, ⟨.ebreak, 0, 0, 0, 0, 0⟩),
    (.full 0x00200073, ⟨.uret, 0, 0, 0, 0, 0⟩),
    (.full 0x10200073, ⟨.sret, 0, 0, 0, 0, 0⟩),
    (.full 0x30200073, ⟨.mret, 0, 0, 0, 0, 0⟩),
    (.full 0x10500073, ⟨.wfi, 0, 0, 0, 0, 0⟩)] = true := by decide

theorem test_tuples_8 : tuplesTo [
    (.full 0x12628073, ⟨.sfenceVma, 0, 5, 6, 0, 0⟩),
    (.half 0x0020, ⟨.addi, 8, 2, 0, 8, 0⟩),
    (.half 0x4124, ⟨.lw, 9, 10, 0, 64, 0⟩),
    (.half 0x6144, ⟨.ld, 9, 10, 0, 128, 0⟩),
    (.half 0xC124, ⟨.sw, 0, 10, 9, 64, 0⟩),
    (.half 0xE144, ⟨.sd, 0, 10, 9, 128, 0⟩),
    (.half 0x0001, ⟨.addi, 0, 0, 0, 0, 0⟩),
    (.half 0x12FD, ⟨.addi, 5, 5, 0, 0xFFFFFFFFFFFFFFFF, 0⟩),
    (.half 0x2285, ⟨.addiw, 5, 5, 0, 1, 0⟩),
    (.half 0x52FD, ⟨.addi, 5, 0, 0, 0xFFFFFFFFFFFFFFFF, 0⟩),
    (.half 0x6141, ⟨.addi, 2, 2, 0, 16, 0⟩),
    (.half 0x72FD, ⟨.lui, 5, 0, 0, 0xFFFFFFFFFFFFF000, 0⟩),
    (.half 0x9001, ⟨.srli, 8, 8, 0, 32, 0⟩),
    (.half 0x9485, ⟨.srai, 9, 9, 0, 33, 0⟩)] = true := by decide

theorem test_tuples_9 : tuplesTo [
    (.half 0x997D, ⟨.andi, 10, 10, 0, 0xFFFFFFFFFFFFFFFF, 0⟩),
    (.half 0x8C05, ⟨.sub, 8, 8, 9, 0, 0⟩),
    (.half 0x8C25, ⟨.xor, 8, 8, 9, 0, 0⟩),
    (.half 0x8C45, ⟨.or, 8, 8, 9, 0, 0⟩),
    (.half 0x8C65, ⟨.and, 8, 8, 9, 0, 0⟩),
    (.half 0x9C05, ⟨.subw, 8, 8, 9, 0, 0⟩),
    (.half 0x9C25, ⟨.addw, 8, 8, 9, 0, 0⟩),
    (.half 0xBFFD, ⟨.jal, 0, 0, 0, 0xFFFFFFFFFFFFFFFE, 0⟩),
    (.half 0xDC7D, ⟨.beq, 0, 8, 0, 0xFFFFFFFFFFFFFFFE, 0⟩),
    (.half 0xE389, ⟨.bne, 0, 15, 0, 2, 0⟩),
    (.half 0x1282, ⟨.slli, 5, 5, 0, 32, 0⟩),
    (.half 0x428A, ⟨.lw, 5, 2, 0, 128, 0⟩),
    (.half 0x6292, ⟨.ld, 5, 2, 0, 256, 0⟩),
    (.half 0xC11A, ⟨.sw, 0, 2, 6, 128, 0⟩)] = true := by decide

theorem test_tuples_10 : tuplesTo [
    (.half 0xE21A, ⟨.sd, 0, 2, 6, 256, 0⟩),
    (.half 0x8282, ⟨.jalr, 0, 5, 0, 0, 0⟩),
    (.half 0x9282, ⟨.jalr, 1, 5, 0, 0, 0⟩),
    (.half 0x829A, ⟨.add, 5, 0, 6, 0, 0⟩),
    (.half 0x929A, ⟨.add, 5, 5, 6, 0, 0⟩),
    (.half 0x9002, ⟨.ebreak, 0, 0, 0, 0, 0⟩)] = true := by decide

/-- FENCE with every field set: the fields it does not use are 0 in the tuple; a refused and an unassigned parcel. -/
theorem test_tuple_unused : decodeTuple (.full 0x8330828F) = .tuple ⟨.fence, 0, 0, 0, 0, 0⟩ ∧
    decodeTuple (.half 0x2000) = .refuse .floatingPoint ∧ decodeTuple (.half 0x8000) = .fatal (.unknownEncoding 0x8000) ∧
    decodeTuple (.half 0x6281) = .refuse .reservedCompressed := by decide

/-! ## One step: rows of spec/95 sections 2 to 9 -/

/-- The start state of the rows. -/
def start : State := { State.reset with pc := 0x1000 }

def csrAt (s : State) (n : CsrName) (v : Word) : State := { s with csr := s.csr.set n v }

def inPriv (s : State) (p : Priv) : State := { s with priv := p }

/-- `M8[k] = v`. -/
def ram (s : State) (k : Nat) (v : Word) : State := { s with mem := Memory.writeLE s.mem k 8 v }

/-- The step that runs the placed word answers a state with the property. -/
def runs (nbits w : Nat) (s : State) (ok : State → Bool) : Bool :=
  match step (s.withFetchWord nbits w) with
  | .next t => ok t
  | .fault _ => false
  | .refused _ => false

/-- The step stops with the fault. -/
def faults (nbits w : Nat) (s : State) (r : Fault) : Bool :=
  match step (s.withFetchWord nbits w) with
  | .next _ => false
  | .fault q => q == r
  | .refused _ => false

/-- The step is refused. -/
def refuses (nbits w : Nat) (s : State) (r : Refusal) : Bool :=
  match step (s.withFetchWord nbits w) with
  | .next _ => false
  | .fault _ => false
  | .refused q => q == r

def regs2 (a b : Word) : State := (start.setX 6 a).setX 7 b

/-- The memory of section 4. -/
def data : State := ram (start.setX 6 0x2000) 0x2000 0x8877665544332211

/-- The memory of section 5. -/
def cell : State := ram (start.setX 6 0x2000) 0x2000 0xFFFFFFFF80000005

def reads (t : State) (k n : Nat) (v : Word) : Bool := Memory.readLE t.mem k n == v

/-- A trap taken to Machine mode, as the rows write it: mstatus, mepc, mcause, mtval, pc = mtvec = 0x80. -/
def trappedM (t : State) (mstatus mepc mcause mtval : Word) : Bool :=
  t.csr.mstatus == mstatus && t.csr.mepc == mepc && t.csr.mcause == mcause && t.csr.mtval == mtval &&
    t.priv == .machine && t.pc == 0x80

/-- A trap taken to Supervisor mode: pc = stvec = 0x90. -/
def trappedS (t : State) (sstatus sepc scause stval : Word) : Bool :=
  t.csr.sstatus == sstatus && t.csr.sepc == sepc && t.csr.scause == scause && t.csr.stval == stval &&
    t.priv == .supervisor && t.pc == 0x90

/-- The vectors of the rows. -/
def vectors (s : State) : State := csrAt (csrAt s .mtvec 0x80) .stvec 0x90

theorem test_auipc_wraps : runs 32 0xFFFFF297 (start) (fun t => t.getX 5 == 0 && t.pc == 0x1004) = true := by decide
theorem test_lui_sign : runs 32 0x800002B7 (start) (fun t => t.getX 5 == 0xFFFFFFFF80000000 && t.pc == 0x1004) = true := by decide
theorem test_addi_wraps : runs 32 0x7FF30293 (start.setX 6 0x7FFFFFFFFFFFFFFF) (fun t => t.getX 5 == 0x80000000000007FE && t.pc == 0x1004) = true := by decide
theorem test_addi_x0_discarded : runs 32 0x00530013 (start.setX 6 1) (fun t => t.getX 0 == 0 && t.pc == 0x1004) = true := by decide
theorem test_sltiu_sign_extends : runs 32 0xFFF33293 (start.setX 6 0xFFFFFFFFFFFFFFFE) (fun t => t.getX 5 == 1 && t.pc == 0x1004) = true := by decide
theorem test_srai_63 : runs 32 0x43F35293 (start.setX 6 0x8000000000000000) (fun t => t.getX 5 == 0xFFFFFFFFFFFFFFFF && t.pc == 0x1004) = true := by decide
theorem test_addiw : runs 32 0x0013029B (start.setX 6 0x7FFFFFFF) (fun t => t.getX 5 == 0xFFFFFFFF80000000 && t.pc == 0x1004) = true := by decide
theorem test_sub_wraps : runs 32 0x407302B3 (regs2 0 1) (fun t => t.getX 5 == 0xFFFFFFFFFFFFFFFF && t.pc == 0x1004) = true := by decide
theorem test_sll_low_six_bits : runs 32 0x007312B3 (regs2 1 0x40) (fun t => t.getX 5 == 1 && t.pc == 0x1004) = true := by decide
theorem test_slt_signed : runs 32 0x007322B3 (regs2 0xFFFFFFFFFFFFFFFF 1) (fun t => t.getX 5 == 1 && t.pc == 0x1004) = true := by decide
theorem test_sra : runs 32 0x407352B3 (regs2 0x8000000000000000 0x43) (fun t => t.getX 5 == 0xF000000000000000 && t.pc == 0x1004) = true := by decide
theorem test_sllw_low_five_bits : runs 32 0x007312BB (regs2 1 0x20) (fun t => t.getX 5 == 1 && t.pc == 0x1004) = true := by decide
theorem test_sraw : runs 32 0x407352BB (regs2 0xABCDEF0180000000 4) (fun t => t.getX 5 == 0xFFFFFFFFF8000000 && t.pc == 0x1004) = true := by decide
theorem test_jal_backward : runs 32 0x800FF0EF (start) (fun t => t.getX 1 == 0x1004 && t.pc == 0) = true := by decide
theorem test_jalr_same_register : runs 32 0x000080E7 (start.setX 1 0x3000) (fun t => t.getX 1 == 0x1004 && t.pc == 0x3000) = true := by decide
theorem test_jalr_keeps_bit_0 : runs 32 0x00128067 (start.setX 5 0x3000) (fun t => t.pc == 0x3001) = true := by decide
theorem test_bge_far : runs 32 0x8062D063 (start.setX 6 0xFFFFFFFFFFFFFFFF) (fun t => t.pc == 0) = true := by decide
theorem test_bltu_not_taken : runs 32 0x0062E463 (start.setX 5 0xFFFFFFFFFFFFFFFF) (fun t => t.pc == 0x1004) = true := by decide
theorem test_lb_sign : runs 32 0x00730283 (data) (fun t => t.getX 5 == 0xFFFFFFFFFFFFFF88 && t.pc == 0x1004) = true := by decide
theorem test_lhu : runs 32 0x00635283 (data) (fun t => t.getX 5 == 0x8877 && t.pc == 0x1004) = true := by decide
theorem test_ld_same_register : runs 32 0x00033303 (data) (fun t => t.getX 6 == 0x8877665544332211 && t.pc == 0x1004) = true := by decide
theorem test_sh_bytes : runs 32 0x00731123 (data.setX 7 0xABCD1234) (fun t => reads t 0x2000 8 0x8877665512342211 && t.pc == 0x1004) = true := by decide
theorem test_sd_zero : runs 32 0x00033023 (data) (fun t => reads t 0x2000 8 0 && Memory.wf t.mem && t.pc == 0x1004) = true := by decide
theorem test_ld_misaligned : runs 32 0x00433283 (vectors data) (fun t => trappedM t 0x1800 0x1000 4 0x2004 && t.getX 5 == 0) = true := by decide
theorem test_sd_misaligned : runs 32 0x00733223 (vectors data) (fun t => trappedM t 0x1800 0x1000 6 0x2004) = true := by decide
theorem test_mulh : runs 32 0x027312B3 (regs2 0x8000000000000000 2) (fun t => t.getX 5 == 0xFFFFFFFFFFFFFFFF && t.pc == 0x1004) = true := by decide
theorem test_mulhsu : runs 32 0x027322B3 (regs2 0xFFFFFFFFFFFFFFFF 0xFFFFFFFFFFFFFFFF) (fun t => t.getX 5 == 0xFFFFFFFFFFFFFFFF && t.pc == 0x1004) = true := by decide
theorem test_mulhu : runs 32 0x027332B3 (regs2 0xFFFFFFFFFFFFFFFF 0xFFFFFFFFFFFFFFFF) (fun t => t.getX 5 == 0xFFFFFFFFFFFFFFFE && t.pc == 0x1004) = true := by decide
theorem test_mulw : runs 32 0x027302BB (regs2 0x10000 0x8000) (fun t => t.getX 5 == 0xFFFFFFFF80000000 && t.pc == 0x1004) = true := by decide
theorem test_div_by_zero : runs 32 0x027342B3 (regs2 7 0) (fun t => t.getX 5 == 0xFFFFFFFFFFFFFFFF && t.pc == 0x1004) = true := by decide
theorem test_div_overflow : runs 32 0x027342B3 (regs2 0x8000000000000000 0xFFFFFFFFFFFFFFFF) (fun t => t.getX 5 == 0x8000000000000000 && t.pc == 0x1004) = true := by decide
theorem test_rem_sign : runs 32 0x027362B3 (regs2 0xFFFFFFFFFFFFFFF9 2) (fun t => t.getX 5 == 0xFFFFFFFFFFFFFFFF && t.pc == 0x1004) = true := by decide
theorem test_divuw : runs 32 0x027352BB (regs2 0xFFFFFFFF 1) (fun t => t.getX 5 == 0xFFFFFFFFFFFFFFFF && t.pc == 0x1004) = true := by decide
theorem test_remw_by_zero : runs 32 0x027362BB (regs2 0x1234567880000007 0) (fun t => t.getX 5 == 0xFFFFFFFF80000007 && t.pc == 0x1004) = true := by decide
theorem test_lrW : runs 32 0x100322AF (cell) (fun t => t.getX 5 == 0xFFFFFFFF80000005 && t.pc == 0x1004 && t.resv == some ⟨0x2000, .word⟩) = true := by decide
theorem test_scW_succeeds : runs 32 0x187322AF ({ cell.setX 7 0x99 with resv := some ⟨0x2000, .word⟩ }) (fun t => t.getX 5 == 0 && t.pc == 0x1004 && t.resv == none && reads t 0x2000 8 0xFFFFFFFF00000099) = true := by decide
theorem test_scD_other_width_fails : runs 32 0x187332AF ({ cell.setX 7 0x99 with resv := some ⟨0x2000, .word⟩ }) (fun t => t.getX 5 == 1 && t.pc == 0x1004 && t.resv == none && reads t 0x2000 8 0xFFFFFFFF80000005) = true := by decide
theorem test_scW_misaligned_keeps_reservation : runs 32 0x187322AF ({ vectors (cell.setX 6 0x2002) with resv := some ⟨0x2000, .word⟩ }) (fun t => trappedM t 0x1800 0x1000 6 0x2002 && t.resv == some ⟨0x2000, .word⟩) = true := by decide
theorem test_amoaddW_wraps : runs 32 0x007322AF (cell.setX 7 0x7FFFFFFB) (fun t => t.getX 5 == 0xFFFFFFFF80000005 && t.pc == 0x1004 && reads t 0x2000 8 0xFFFFFFFF00000000) = true := by decide
theorem test_amominW_signed : runs 32 0x807322AF (cell.setX 7 1) (fun t => t.getX 5 == 0xFFFFFFFF80000005 && t.pc == 0x1004 && reads t 0x2000 4 0x80000005) = true := by decide
theorem test_amominuW_unsigned : runs 32 0xC07322AF (cell.setX 7 1) (fun t => t.getX 5 == 0xFFFFFFFF80000005 && t.pc == 0x1004 && reads t 0x2000 4 1) = true := by decide
theorem test_amoaddD_same_registers : runs 32 0x0063332F (cell) (fun t => t.getX 6 == 0xFFFFFFFF80000005 && reads t 0x2000 8 0xFFFFFFFF80002005) = true := by decide
theorem test_csrrs_E6 : runs 32 0x340322F3 (csrAt (start.setX 6 2) .mscratch 5) (fun t => t.getX 5 == 5 && t.pc == 0x1004 && t.csr.mscratch == 7) = true := by decide
theorem test_csrrw_same_register : runs 32 0x340292F3 (csrAt (start.setX 5 0x1234) .mscratch 5) (fun t => t.getX 5 == 5 && t.pc == 0x1004 && t.csr.mscratch == 0x1234) = true := by decide
theorem test_csrrci : runs 32 0x340FF2F3 (csrAt start .mscratch 0xFF) (fun t => t.getX 5 == 0xFF && t.pc == 0x1004 && t.csr.mscratch == 0xE0) = true := by decide
theorem test_csrrs_readonly_with_x0 : runs 32 0xF14022F3 ((vectors start).setX 5 9) (fun t => t.getX 5 == 0 && t.pc == 0x1004) = true := by decide
theorem test_csrrs_readonly_writes : runs 32 0xF14322F3 ((vectors start).setX 5 9) (fun t => trappedM t 0x1800 0x1000 2 0 && t.getX 5 == 9) = true := by decide
theorem test_csrrs_privilege : runs 32 0x340022F3 (inPriv (csrAt (vectors start) .mscratch 0x42) .supervisor) (fun t => trappedM t 0x800 0x1000 2 0 && t.getX 5 == 0) = true := by decide
theorem test_sstatus_is_not_mstatus : runs 32 0x100022F3 (csrAt (csrAt start .mstatus 0x1888) .sstatus 0x22) (fun t => t.getX 5 == 0x22 && t.pc == 0x1004) = true := by decide
theorem test_counter_readable_in_user : runs 32 0xC00022F3 (inPriv start .user) (fun t => t.pc == 0x1004) = true := by decide
theorem test_ecall_user : runs 32 0x00000073 (inPriv (vectors start) .user) (fun t => trappedM t 0 0x1000 8 0) = true := by decide
theorem test_ecall_delegated : runs 32 0x00000073 (inPriv (csrAt (csrAt (vectors start) .medeleg 0x100) .sstatus 2) .user) (fun t => trappedS t 0x20 0x1000 8 0) = true := by decide
theorem test_ebreak_machine : runs 32 0x00100073 (csrAt (vectors start) .mstatus 8) (fun t => trappedM t 0x1880 0x1000 3 0) = true := by decide
theorem test_mret_to_user : runs 32 0x30200073 (csrAt (csrAt start .mstatus 0x80) .mepc 0x4000) (fun t => t.csr.mstatus == 0x88 && t.priv == .user && t.pc == 0x4000) = true := by decide
theorem test_mret_in_supervisor : runs 32 0x30200073 (inPriv (csrAt (vectors start) .mstatus 8) .supervisor) (fun t => trappedM t 0x880 0x1000 2 0) = true := by decide
theorem test_sret : runs 32 0x10200073 (inPriv (csrAt (csrAt start .sstatus 0x120) .sepc 0x5000) .supervisor) (fun t => t.csr.sstatus == 0x122 && t.priv == .supervisor && t.pc == 0x5000) = true := by decide
theorem test_sret_in_user : runs 32 0x10200073 (inPriv (csrAt (vectors start) .sstatus 0x120) .user) (fun t => trappedM t 0 0x1000 2 0) = true := by decide
theorem test_wfi_user : runs 32 0x10500073 (inPriv start .user) (fun t => t.pc == 0x1004) = true := by decide
theorem test_sfence_vma_user : runs 32 0x12628073 (inPriv start .user) (fun t => t.pc == 0x1004) = true := by decide
theorem test_fence_with_registers : runs 32 0x0FF3028F ((start.setX 5 1).setX 6 2) (fun t => t.getX 5 == 1 && t.pc == 0x1004) = true := by decide
theorem test_cAddi4spn : runs 16 0x1FE0 (start.setX 2 0x3000) (fun t => t.getX 8 == 0x33FC && t.pc == 0x1002) = true := by decide
theorem test_cLw : runs 16 0x5D64 (data.setX 10 0x1F88) (fun t => t.getX 9 == 0xFFFFFFFF88776655 && t.pc == 0x1002) = true := by decide
theorem test_cAddi16sp : runs 16 0x7101 (start.setX 2 0x3000) (fun t => t.getX 2 == 0x2E00 && t.pc == 0x1002) = true := by decide
theorem test_cLui : runs 16 0x7281 (start) (fun t => t.getX 5 == 0xFFFFFFFFFFFE0000 && t.pc == 0x1002) = true := by decide
theorem test_cSrai : runs 16 0x8791 (start.setX 15 0xF000000000000000) (fun t => t.getX 15 == 0xFF00000000000000 && t.pc == 0x1002) = true := by decide
theorem test_cJ : runs 16 0xB001 (start) (fun t => t.getX 0 == 0 && t.pc == 0x800) = true := by decide
theorem test_cBeqz : runs 16 0xCC7D (start) (fun t => t.pc == 0x10FE) = true := by decide
theorem test_cLwsp : runs 16 0x52FE (data.setX 2 0x1F08) (fun t => t.getX 5 == 0xFFFFFFFF88776655 && t.pc == 0x1002) = true := by decide
theorem test_cSdsp : runs 16 0xE416 ((data.setX 2 0x2000).setX 5 0x102030405060708) (fun t => reads t 0x2008 8 0x102030405060708 && t.pc == 0x1002) = true := by decide
theorem test_cJalr_ra : runs 16 0x9082 (start.setX 1 0x3000) (fun t => t.getX 1 == 0x1002 && t.pc == 0x3000) = true := by decide
theorem test_cEbreak : runs 16 0x9002 (vectors start) (fun t => trappedM t 0x1800 0x1000 3 0) = true := by decide

theorem test_uret : faults 32 0x00200073 start (.badTrapExit .uret) = true := by decide
theorem test_zero_parcel : faults 16 0x0000 start (.unknownEncoding 0) = true := by decide
theorem test_unknown_is_fatal : faults 32 0xFFFFFFFF (vectors start) (.unknownEncoding 0xFFFFFFFF) = true := by decide
theorem test_fcsr_refused : refuses 32 0x003022F3 (vectors start) .floatingPoint = true := by decide
theorem test_mret_mpp_2 : refuses 32 0x30200073 (csrAt start .mstatus 0x1000) .badPrivilegeValue = true := by decide
theorem test_cLui_zero_refused : refuses 16 0x6281 start .reservedCompressed = true := by decide
theorem test_cFld_refused : refuses 16 0x2000 start .floatingPoint = true := by decide

/-- Section 4: `ld x5, 0(x6)` where no device is. -/
theorem test_no_device : faults 32 0x00033283
    { start.setX 6 0x9000 with plat := { Platform.default with physMap :=
      ⟨0, BitVec.allOnes 64, .absent, .node 0x1000 0x103F (.memory 0x1000) .none .none⟩ } }
    (.noDevice 0x9000 8 .read) = true := by decide

/-- Section 9: a cycle that starts with an odd pc. -/
theorem test_odd_pc : (match step (csrAt (csrAt { start with pc := 0x3001 } .mtvec 0x80) .mstatus 8) with
    | .next t => trappedM t 0x1880 0x3001 0 0x3001
    | .fault _ => false
    | .refused _ => false) = true := by decide

/-- E3 of section 1, R102: two children, and an address in neither. -/
def twoDevices : PhysMap := ⟨0, 0xFFFF, .other 9, .node 0x1000 0x1FFF (.memory 0) .none (.node 0x3000 0x3FFF (.rom 0) .none .none)⟩

theorem test_routing : twoDevices.route 0x1FFF = (.memory 0, 0xFFF) ∧ twoDevices.route 0x3000 = (.rom 0, 0) ∧
    twoDevices.route 0x2000 = (.other 9, 0x2000) := by decide

/-! ### Section 6: Sv39 -/

/-- The eight bytes of a page-table entry. -/
def entry (a : Nat) (v : Word) : Memory :=
  [(a, v.extractLsb' 0 8), (a + 1, v.extractLsb' 8 8), (a + 2, v.extractLsb' 16 8), (a + 3, v.extractLsb' 24 8),
    (a + 4, v.extractLsb' 32 8), (a + 5, v.extractLsb' 40 8), (a + 6, v.extractLsb' 48 8), (a + 7, v.extractLsb' 56 8)]

/-- The page tables of section 6, the entries that are 0 written out as well. -/
def tables : Memory :=
  entry 0x80000 0xF ++ entry 0x80008 0x20401 ++ entry 0x80010 0x20401 ++ entry 0x80018 0x0 ++
  entry 0x81010 0x20801 ++ entry 0x81018 0x0 ++ entry 0x81028 0x10040F ++ entry 0x82018 0x240CF ++
  entry 0x82020 0x24403 ++ entry 0x82028 0x0 ++ entry 0x82030 0x24005 ++ entry 0x82038 0x24001 ++
  entry 0x82040 0x1C00F

theorem test_tables : Memory.wf tables = true ∧ Memory.readLE tables 0x81028 8 = 0x10040F := by decide

/-- Supervisor mode, `satp` = 0x8000000000000080. -/
def paged : State :=
  { inPriv (csrAt (vectors start) .satp 0x8000000000000080) .supervisor with mem := tables }

/-- The physical address a translation gives, without its state. -/
def paOf (r : Res Word) : Option Word :=
  match r with
  | .done pa _ => some pa
  | .raise _ _ _ => none
  | .fatal _ => none
  | .refuse _ => none

theorem test_sv39_level_0 : paOf (translateVa .load 0x40403456 paged) = some 0x90456 := by decide
theorem test_sv39_upper_bits : paOf (translateVa .load 0xFFFFFF8040403456 paged) = some 0x90456 := by decide
theorem test_sv39_level_1 : paOf (translateVa .load 0x80BABCDE paged) = some 0x5ABCDE := by decide
theorem test_sv39_level_2 : paOf (translateVa .fetch 0x3FFFFFFF paged) = some 0x3FFFFFFF := by decide
theorem test_sv39_no_permission_check : paOf (translateVa .store 0x40404FF8 paged) = some 0x91FF8 := by decide
theorem test_sv39_invalid : [0x40405000, 0x40406000, 0x40407000, 0x40600000, 0xC0000000].all
    (fun va => paOf (translateVa .load va paged) == none) = true := by decide
theorem test_sv39_machine : paOf (translateVa .load 0x40405000 (inPriv paged .machine)) = some 0x40405000 := by decide

theorem test_load_page_fault : runs 32 0x00033283 (paged.setX 6 0x40405008)
    (fun t => trappedM t 0x800 0x1000 0xD 0x40405008) = true := by decide
theorem test_store_page_fault_delegated : runs 32 0x00732023
    (inPriv (csrAt (paged.setX 6 0x40406000) .medeleg 0x8000) .user)
    (fun t => trappedS t 0 0x1000 0xF 0x40406000) = true := by decide
theorem test_fetch_page_fault : (match step { paged with pc := 0x40405000 } with
    | .next t => trappedM t 0x800 0x40405000 0xC 0x40405000
    | .fault _ => false
    | .refused _ => false) = true := by decide
theorem test_second_parcel_page_fault : (match step { ram paged 0x91FF8 0x0293000000000000 with pc := 0x40404FFE } with
    | .next t => trappedM t 0x800 0x40404FFE 0xC 0x40405000
    | .fault _ => false
    | .refused _ => false) = true := by decide

/-! ### Section 9: interrupts. `addi x5, x0, 1` at the pc, `addi x6, x0, 2` at mtvec, `addi x7, x0, 3` at stvec. -/

def irq (s : State) (ext tim : Bool) : State :=
  { ram (ram (ram (vectors s) 0x1000 0x00100293) 0x80 0x00200313) 0x90 0x00300393 with irqInputs := [⟨ext, tim⟩] }

def steps (s : State) (ok : State → Bool) : Bool :=
  match step s with
  | .next t => ok t
  | .fault _ => false
  | .refused _ => false

theorem test_irq_both_external_first : steps (irq (csrAt (csrAt start .mstatus 8) .mie 0x880) true true)
    (fun t => t.getX 6 == 2 && t.csr.mstatus == 0x1880 && t.csr.mepc == 0x1000 &&
      t.csr.mcause == 0x800000000000000B && t.csr.mip == 0x800 && t.pc == 0x84) = true := by decide
theorem test_irq_disabled : steps (irq (csrAt start .mie 0x800) true false)
    (fun t => t.getX 5 == 1 && t.pc == 0x1004) = true := by decide
theorem test_irq_external_not_enabled : steps (irq (csrAt (csrAt start .mstatus 8) .mie 0x80) true true)
    (fun t => t.getX 6 == 2 && t.csr.mcause == 0x8000000000000007 && t.csr.mip == 0x80 && t.pc == 0x84) = true := by
  decide
theorem test_irq_user_needs_mie : steps (irq (inPriv (csrAt start .mie 0x80) .user) false true)
    (fun t => t.getX 5 == 1 && t.pc == 0x1004) = true := by decide
theorem test_irq_delegated : steps
    (irq (inPriv (csrAt (csrAt (csrAt start .mideleg 0x80) .sstatus 2) .sie 0x80) .user) false true)
    (fun t => t.getX 7 == 3 && t.csr.sstatus == 0x20 && t.csr.sepc == 0x1000 && t.csr.scause == 0x8000000000000007 &&
      t.csr.sip == 0x80 && t.priv == .supervisor && t.pc == 0x94) = true := by decide

/-! ## Witnesses: the hypotheses of each statement can be met together -/

/-- A map with a device of each class: memory, ROM, an undescribed device, and none elsewhere. -/
def deviceMap : PhysMap :=
  ⟨0, BitVec.allOnes 64, .absent, .node 0x1000 0x1FFF (.memory 0) .none
    (.node 0x3000 0x3FFF (.rom 0) .none (.node 0x5000 0x5FFF (.other 9) .none .none))⟩

def devices : State := { start with plat := { Platform.default with physMap := deviceMap } }

/-- The same machine in Supervisor mode with a page table where no device is. -/
def walkless : State := inPriv (csrAt devices .satp 0x8000000000000080) .supervisor

theorem witness_wellformed : WellFormed (.cLui 31 63) ∧ WellFormed (.cAddi4spn 7 1) ∧ WellFormed (.lui 0 0xFFFFF) := by
  decide

theorem witness_decoded : decode (.half 0x1FE0) = .ok (.cAddi4spn 0 255) ∧ decode (.full 0x007302B3) = .ok (.add 5 6 7) :=
  by decide

/-- O6, O41 to O45. -/
theorem witness_operands : (31 : RegIdx) ≠ 0 ∧ (31 : RegIdx) ≠ 2 ∧ (1 : RegIdx) ≠ 31 ∧ (7 : CRegIdx) ≠ 0 ∧
    (1 : BitVec 6) ≠ 0 ∧ (1 : BitVec 8) ≠ 0 := by decide

/-- O12, each clause: the overflow case of DIV, the largest unsigned divisor, and the same for words. -/
theorem witness_division : ∃ q r, (regs2 0x8000000000000000 0xFFFFFFFFFFFFFFFF).getX 7 ≠ 0 ∧
    exec (.div 5 6 7) (regs2 0x8000000000000000 0xFFFFFFFFFFFFFFFF) = .next q ∧
    exec (.rem 8 6 7) (regs2 0x8000000000000000 0xFFFFFFFFFFFFFFFF) = .next r :=
  ⟨_, _, by decide, rfl, rfl⟩

theorem witness_division_unsigned : ∃ q r, (regs2 7 0xFFFFFFFFFFFFFFFF).getX 7 ≠ 0 ∧
    exec (.divu 5 6 7) (regs2 7 0xFFFFFFFFFFFFFFFF) = .next q ∧
    exec (.remu 8 6 7) (regs2 7 0xFFFFFFFFFFFFFFFF) = .next r :=
  ⟨_, _, by decide, rfl, rfl⟩

theorem witness_division_word : ∃ q r, lo ((regs2 0x80000000 0xFFFFFFFF).getX 7) ≠ 0 ∧
    exec (.divw 5 6 7) (regs2 0x80000000 0xFFFFFFFF) = .next q ∧
    exec (.remw 8 6 7) (regs2 0x80000000 0xFFFFFFFF) = .next r :=
  ⟨_, _, by decide, rfl, rfl⟩

theorem witness_division_word_unsigned : ∃ q r, lo ((regs2 7 0xFFFFFFFF).getX 7) ≠ 0 ∧
    exec (.divuw 5 6 7) (regs2 7 0xFFFFFFFF) = .next q ∧ exec (.remuw 8 6 7) (regs2 7 0xFFFFFFFF) = .next r :=
  ⟨_, _, by decide, rfl, rfl⟩

/-- What the last clauses of the access rules (O15 to O20, O44, O45) assume: an aligned address that translates and that
the device answers. -/
def Reaches (acc : AccessType) (s : State) (n : Nat) (d : Device) (off va : Word) : Prop :=
  va = s.getX 6 + sx12 0 ∧ va.toNat % n = 0 ∧ translateVa acc va s = .done va s ∧
    s.plat.physMap.route va = (d, off) ∧ Memory.wf s.mem = true

/-- The first and the last doubleword of the memory, and each other class of device. -/
theorem witness_load_devices : Reaches .load (devices.setX 6 0x1000) 8 (.memory 0) 0 0x1000 ∧
    Reaches .load (devices.setX 6 0x1FF8) 8 (.memory 0) 0xFF8 0x1FF8 ∧
    Reaches .load (devices.setX 6 0x3FF8) 8 (.rom 0) 0xFF8 0x3FF8 ∧
    Reaches .load (devices.setX 6 0x5000) 4 (.other 9) 0 0x5000 ∧
    Reaches .load (devices.setX 6 0x2000) 8 .absent 0x2000 0x2000 :=
  ⟨⟨by decide, by decide, rfl, by decide, by decide⟩, ⟨by decide, by decide, rfl, by decide, by decide⟩,
    ⟨by decide, by decide, rfl, by decide, by decide⟩, ⟨by decide, by decide, rfl, by decide, by decide⟩,
    ⟨by decide, by decide, rfl, by decide, by decide⟩⟩

theorem witness_store_devices : Reaches .store (devices.setX 6 0x1000) 8 (.memory 0) 0 0x1000 ∧
    Reaches .store (devices.setX 6 0x1FF8) 8 (.memory 0) 0xFF8 0x1FF8 ∧
    Reaches .store (devices.setX 6 0x3FF8) 8 (.rom 0) 0xFF8 0x3FF8 ∧
    Reaches .store (devices.setX 6 0x5000) 4 (.other 9) 0 0x5000 ∧
    Reaches .store (devices.setX 6 0x2000) 8 .absent 0x2000 0x2000 :=
  ⟨⟨by decide, by decide, rfl, by decide, by decide⟩, ⟨by decide, by decide, rfl, by decide, by decide⟩,
    ⟨by decide, by decide, rfl, by decide, by decide⟩, ⟨by decide, by decide, rfl, by decide, by decide⟩,
    ⟨by decide, by decide, rfl, by decide, by decide⟩⟩

/-- The first clauses: a misaligned address, a page fault, a walk that stops. -/
theorem witness_misaligned : ((start.setX 6 0x1FFF).getX 6 + sx12 0).toNat % 2 ≠ 0 := by decide

theorem witness_access_page_fault :
    (∃ u, (0x40405000 : Word).toNat % 8 = 0 ∧
      translateVa .load 0x40405000 paged = .raise .loadPageFault 0x40405000 u) ∧
    ∃ u, translateVa .store 0x40405000 paged = .raise .storePageFault 0x40405000 u :=
  ⟨⟨_, by decide, rfl⟩, ⟨_, rfl⟩⟩

theorem witness_walk_stops : translateVa .load 0 walkless = .fatal (.noDevice 0x80000 8 .read) ∧
    translateVa .store 0 walkless = .fatal (.noDevice 0x80000 8 .read) := ⟨rfl, rfl⟩

/-- O18: a reservation that matches, and one of the other width. -/
theorem witness_reservation : ({ devices with resv := some ⟨0x1000, .word⟩ } : State).resv = some ⟨0x1000, .word⟩ ∧
    ({ devices with resv := some ⟨0x1000, .double⟩ } : State).resv ≠ some ⟨0x1000, .word⟩ := by decide

/-- O21: a child behind one that does not hold the address, at the ends of its range; and an address in none. -/
theorem witness_routing :
    children deviceMap.children = [(0x1000, 0x1FFF, .memory 0, .none)] ++ (0x3000, 0x3FFF, .rom 0, .none) ::
      [(0x5000, 0x5FFF, .other 9, .none)] ∧
    ¬ holds (0x1000, 0x1FFF, .memory 0, .none) 0x3000 ∧ holds (0x3000, 0x3FFF, .rom 0, .none) 0x3000 ∧
    holds (0x3000, 0x3FFF, .rom 0, .none) 0x3FFF ∧ (∀ d ∈ children deviceMap.children, ¬ holds d 0x4000) := by
  simp [children, deviceMap, holds]

/-- O22, O23: a width outside the four, the four, and each class of device. -/
theorem witness_physical : ((3 : Nat) ≠ 1 ∧ 3 ≠ 2 ∧ 3 ≠ 4 ∧ 3 ≠ 8) ∧ deviceMap.route 0x1FFF = (.memory 0, 0xFFF) ∧
    deviceMap.route 0x3000 = (.rom 0, 0) ∧ deviceMap.route 0x5FFF = (.other 9, 0xFFF) ∧
    deviceMap.route 0x2000 = (.absent, 0x2000) ∧ Memory.wf devices.mem = true := by decide

/-- O24. -/
theorem witness_bytes : Memory.wf tables = true ∧ 8 ≤ 8 ∧ 7 < 8 := by decide

/-- O25: Machine mode; Supervisor mode with MODE 0; a translation that walks. -/
theorem witness_translation_off : start.priv = .machine ∧ (inPriv start .supervisor).csr.satp.extractLsb' 60 4 = 0 ∧
    translateVa .load 0x40403456 paged = .done 0x90456 paged := ⟨rfl, by decide, rfl⟩

/-- O26: an invalid entry, a leaf and a pointer at each level, and a table where no device is. -/
theorem witness_walk_level_2 : paged.priv ≠ .machine ∧ paged.csr.satp.extractLsb' 60 4 ≠ 0 ∧
    physRead (0x80000 + ((0xC0000000 : Word).extractLsb' 30 9).setWidth 64 * 8) 8 .none paged = .done 0 paged ∧
    physRead (0x80000 + ((0x1234 : Word).extractLsb' 30 9).setWidth 64 * 8) 8 .none paged = .done 0xF paged ∧
    physRead (0x80000 + ((0x40403456 : Word).extractLsb' 30 9).setWidth 64 * 8) 8 .none paged = .done 0x20401 paged :=
  ⟨by decide, by decide, rfl, rfl, rfl⟩

theorem witness_walk_level_1 :
    physRead (0x81000 + ((0x40600000 : Word).extractLsb' 21 9).setWidth 64 * 8) 8 .none paged = .done 0 paged ∧
    physRead (0x81000 + ((0x40BABCDE : Word).extractLsb' 21 9).setWidth 64 * 8) 8 .none paged = .done 0x10040F paged ∧
    physRead (0x81000 + ((0x40403456 : Word).extractLsb' 21 9).setWidth 64 * 8) 8 .none paged = .done 0x20801 paged :=
  ⟨rfl, rfl, rfl⟩

theorem witness_walk_level_0 :
    physRead (0x82000 + ((0x40406000 : Word).extractLsb' 12 9).setWidth 64 * 8) 8 .none paged = .done 0x24005 paged ∧
    physRead (0x82000 + ((0x40403456 : Word).extractLsb' 12 9).setWidth 64 * 8) 8 .none paged = .done 0x240CF paged ∧
    physRead (0x82000 + ((0x40407000 : Word).extractLsb' 12 9).setWidth 64 * 8) 8 .none paged = .done 0x24001 paged :=
  ⟨rfl, rfl, rfl⟩

theorem witness_walk_no_table :
    physRead (0x80000 + ((0 : Word).extractLsb' 30 9).setWidth 64 * 8) 8 .none walkless =
      .fatal (.noDevice 0x80000 8 .read) ∧
    physRead (0x80000 + ((0 : Word).extractLsb' 21 9).setWidth 64 * 8) 8 .none walkless =
      .fatal (.noDevice 0x80000 8 .read) ∧
    physRead (0x80000 + ((0xFFF : Word).extractLsb' 12 9).setWidth 64 * 8) 8 .none walkless =
      .fatal (.noDevice 0x80000 8 .read) := ⟨rfl, rfl, rfl⟩

/-- O27: a second state that differs in a register, in the reservation and in another CSR. -/
theorem witness_translation_depends : paged.plat.physMap.described = true ∧
    (csrAt (paged.setX 6 1) .mstatus 0x80000).csr.satp = paged.csr.satp ∧
    (csrAt (paged.setX 6 1) .mstatus 0x80000).mem = paged.mem ∧
    translateVa .load 0x40403456 paged = .done 0x90456 paged := ⟨by decide, rfl, rfl, rfl⟩

/-- O28 to O31: a number of each class, at the ends of the ranges. -/
theorem witness_csr_classes : csrClass [5] 3 = .refused ∧ csrClass [5] 5 = .fatal ∧
    csrClass [5] 0x100 = .stored .sstatus ∧ csrClass [5] 0xF14 = .stored .mhartid ∧ csrClass [5] 0xC02 = .computed .instret ∧
    csrClass [5] 0xC03 = .unsupported ∧ csrClass [5] 0xC1F = .unsupported ∧ csrClass [5] 0xC20 = .unrecognized ∧
    csrClass [5] 0x323 = .unsupported ∧ csrClass [5] 0x322 = .unrecognized ∧ csrClass [5] 0xB1F = .unsupported := by decide

/-- O30: a read that raises, one that is fatal, one that is refused, and the done read of a writable and of a read-only
number. -/
theorem witness_csr_update : csrRead 0x340 (inPriv start .user) = .raise .illegalInstruction 0 (inPriv start .user) ∧
    csrRead 5 { start with plat := { Platform.default with csrFatalSet := [5] } } = .fatal (.csrPanic 5) ∧
    csrRead 3 start = .refuse .floatingPoint ∧ csrRead 0x340 start = .done 0 start ∧
    (0x340 : CsrNum).extractLsb' 10 2 ≠ 3 ∧ csrRead 0xF14 start = .done 0 start ∧
    (0xF14 : CsrNum).extractLsb' 10 2 = 3 := ⟨rfl, rfl, rfl, rfl, by decide, rfl, by decide⟩

/-- O33, O34: every level, MPP = 2 and MPP = 3. -/
theorem witness_returns : (inPriv start .user).priv = .user ∧ (inPriv start .supervisor).priv ≠ .user ∧
    (inPriv start .supervisor).priv ≠ .machine ∧ start.priv = .machine ∧
    (csrAt start .mstatus 0x1000).csr.mstatus.extractLsb' 11 2 = 2 ∧
    (csrAt start .mstatus 0x1800).csr.mstatus.extractLsb' 11 2 ≠ 2 := by decide

/-- O46, O47: an exception and an interrupt that land in Supervisor mode, and the same cause in Machine mode. -/
theorem witness_trap_targets :
    (inPriv (csrAt start .medeleg 0x8000) .user).trapsToSupervisor 15 = true ∧
    (inPriv (csrAt start .mideleg 0x80) .supervisor).trapsToSupervisor 0x8000000000000007 = true ∧
    (csrAt start .medeleg 0x8000).trapsToSupervisor 15 = false ∧
    (inPriv start .user).trapsToSupervisor 15 = false := by decide

/-- O48: a queued sample and an empty queue; a taken interrupt of each target. -/
theorem witness_interrupts : (irq start true false).irqInputs = [⟨true, false⟩] ∧ start.irqInputs = [] ∧
    (csrAt (csrAt start .mstatus 8) .mie 0x800).irqEnabled 11 = true ∧
    (inPriv (csrAt (csrAt (csrAt start .mideleg 0x80) .sstatus 2) .sie 0x80) .user).irqEnabled 7 = true ∧
    start.irqEnabled 11 = false := by decide

/-- `addi x5, x0, 1` and `c.li x5, 1` at the pc, with one sample queued. -/
def fullAtPc : State := { ram start 0x1000 0x00100293 with irqInputs := [⟨false, false⟩] }
def halfAtPc : State := { ram start 0x1000 0x4285 with irqInputs := [⟨false, false⟩] }

/-- O49: a full word and a parcel, in memory, with the interrupt check before them. -/
theorem witness_step_decoded : fullAtPc.halted = .running ∧ (handleInterrupt fullAtPc).pc = 0x1000 ∧
    (handleInterrupt fullAtPc).plat.physMap.route 0x1000 = (.memory 0, 0x1000) ∧
    (Memory.read (handleInterrupt fullAtPc).mem 0x1001 ++ Memory.read (handleInterrupt fullAtPc).mem 0x1000 : BitVec 16) =
      0x0293 ∧
    decode (.full (0x0010#16 ++ 0x0293#16)) = .ok (.addi 5 0 1) ∧ decode (.half 0x4285) = .ok (.cLi 5 1) ∧
    (∃ v, fetch (handleInterrupt fullAtPc) = .done (.full 0x00100293) v) ∧
    ∃ v, fetch (handleInterrupt halfAtPc) = .done (.half 0x4285) v :=
  ⟨rfl, by decide, by decide, by decide, by decide, by decide, ⟨_, rfl⟩, ⟨_, rfl⟩⟩

/-- O50: an odd pc, a fault of the first parcel, a fault of the second, and the two encodings with no instruction. -/
theorem witness_fetch_outcomes :
    (handleInterrupt { start with pc := 0x3001 }).pc.getLsbD 0 = true ∧
    (∃ v, translateVa .fetch 0x40405000 (handleInterrupt { paged with pc := 0x40405000 }) =
      .raise .instrPageFault 0x40405000 v) ∧
    (∃ v w, fetch16 0x40404FFE (handleInterrupt { paged with pc := 0x40404FFE, mem := tables ++ [(0x91FFE, 0x93), (0x91FFF, 0)] }) =
        .done 0x0093 v ∧
      translateVa .fetch 0x40405000 v = .raise .instrPageFault 0x40405000 w) ∧
    decode (.full 0xFFFFFFFF) = .error (.unknownEncoding 0xFFFFFFFF) ∧
    decode (.half 0x6281) = .error .reservedCompressed :=
  ⟨by decide, ⟨_, rfl⟩, ⟨_, _, rfl, rfl⟩, by decide, by decide⟩

/-- O50: the fatal ends, of the first parcel (a walk with no table, an address with no device, each at the end of a
range) and of the second (`devices` has memory up to 0x1FFF). -/
theorem witness_fetch_fatal :
    (handleInterrupt { walkless with pc := 0x1000 }).pc.getLsbD 0 = false ∧
    translateVa .fetch 0x1000 (handleInterrupt { walkless with pc := 0x1000 }) = .fatal (.noDevice 0x80000 8 .read) ∧
    (∃ v, translateVa .fetch 0x2000 (handleInterrupt { devices with pc := 0x2000 }) = .done 0x2000 v) ∧
    devices.plat.physMap.route 0x2000 = (.absent, 0x2000) ∧
    (∃ v w, fetch16 0x1FFE (handleInterrupt { devices with pc := 0x1FFE, mem := [(0xFFE, 0x93), (0xFFF, 0)] }) =
        .done 0x0093 v ∧
      translateVa .fetch 0x2000 v = .done 0x2000 w) ∧
    fetch (handleInterrupt { devices with pc := 0x1FFE, mem := [(0xFFE, 0x93), (0xFFF, 0)] }) =
      .fatal (.noDevice 0x2000 2 .read) :=
  ⟨by decide, rfl, ⟨_, rfl⟩, by decide, ⟨_, _, rfl, rfl⟩, rfl⟩

/-- A page mapped to memory, and behind it an entry that points where no device is. -/
def halfMapped : State :=
  { inPriv (csrAt start .satp 0x8000000000000080) .supervisor with
    pc := 0x405FFFFE
    plat := { Platform.default with
      physMap := ⟨0, BitVec.allOnes 64, .absent, .node 0 0xFFFFF (.memory 0) .none .none⟩ }
    mem := entry 0x80008 0x20401 ++ entry 0x81010 0x20801 ++ entry 0x81018 0x40000001 ++ entry 0x82FF8 0x2440F ++
      [(0x91FFE, 0x93), (0x91FFF, 0)] }

/-- O50: a second parcel whose walk is fatal. -/
theorem witness_second_parcel_walk_fatal : ∃ v, fetch16 0x405FFFFE (handleInterrupt halfMapped) = .done 0x0093 v ∧
    translateVa .fetch 0x40600000 v = .fatal (.noDevice 0x100000000 8 .read) := ⟨_, rfl, rfl⟩

/-- O51. -/
theorem witness_halted : ({ start with halted := .fatal .badWidth } : State).halted = .fatal .badWidth ∧
    start.halted = .running ∧ step { start with mem := [(0x1000, 0xFF), (0x1001, 0xFF), (0x1002, 0xFF), (0x1003, 0xFF)] } =
      .fault (.unknownEncoding 0xFFFFFFFF) := ⟨rfl, rfl, rfl⟩

/-- A fatal cycle that took an interrupt first (R13): the mark is set, the level, the pc and the CSRs are as before. -/
theorem test_fatal_writes_nothing_else :
    (let s : State := { csrAt (csrAt (csrAt start .mtvec 0x80) .mstatus 8) .mie 0x800 with
      irqInputs := [⟨true, false⟩], mem := [(0x80, 0xFF), (0x81, 0xFF), (0x82, 0xFF), (0x83, 0xFF)] }
    let t := settle s
    t.halted == .fatal (.unknownEncoding 0xFFFFFFFF) && t.pc == 0x1000 && t.csr == s.csr && t.priv == s.priv) = true := by
  decide

/-- All 4096 slots are 0 after reset, and a raw write changes the one slot, named or not (R8, R17, R80). -/
theorem test_csr_array : CsrFile.zero.slot 0x7C0 = 0 ∧ ((CsrFile.zero.setSlot 0x7C0 5).setSlot 0x300 6).slot 0x7C0 = 5 ∧
    ((CsrFile.zero.setSlot 0x7C0 5).setSlot 0x300 6).mstatus = 6 ∧
    ((CsrFile.zero.setSlot 0x7C0 5).setSlot 0x7C0 0) = CsrFile.zero := by decide

/-- A byte that nothing has written is free, each by itself (R572). -/
theorem test_initial_memory : Memory.read State.reset.mem 0x2000 = Config.initialByte 0x2000 ∧
    Memory.read (Memory.write State.reset.mem 0x2000 0) 0x2000 = 0 := ⟨rfl, rfl⟩

/-- O54, O55. -/
theorem witness_invariant_step : fullAtPc.Inv ∧ ∃ t, step fullAtPc = .next t :=
  ⟨⟨by decide, by decide, by decide, rfl⟩, _, rfl⟩

/-- O56 to O60: an instruction that completes, one that traps, LR, SC, a CSR write, both returns, and User mode. -/
theorem witness_frames : start.plat.physMap.described = true ∧ writesMemory (.ld 5 6 0) = false ∧
    (∃ t, exec (.ld 5 6 0) data = .next t) ∧ (∃ t, exec .ecall start = .next t) ∧
    (∃ t, exec (.lrW 5 6 0 0) cell = .next t) ∧ (∃ t, exec (.scW 5 6 7 0 0) cell = .next t) ∧
    (∃ t, exec (.csrrw 5 6 0x340) start = .next t) ∧ (∃ t, exec .sret start = .next t) ∧
    (∃ t, exec .mret start = .next t) ∧ dest (.ld 5 6 0) ≠ some 6 ∧
    (inPriv start .user).priv = .user ∧ ∃ t, exec (.csrrw 5 6 0x340) (inPriv start .user) = .next t :=
  ⟨by decide, by decide, ⟨_, rfl⟩, ⟨_, rfl⟩, ⟨_, rfl⟩, ⟨_, rfl⟩, ⟨_, rfl⟩, ⟨_, rfl⟩, ⟨_, rfl⟩, by decide, rfl, ⟨_, rfl⟩⟩

end Sys2Proof.Tests
end

section
/-! The integer registers (spec/10_state.md R30), settled from the laws of the register file, of trap entry and of the
interrupt check. -/

namespace Sys2Proof.Machine

/-- Settles O6: writes are followed by `getX_setX`; the level, a trap entry and the interrupt check keep the file that
`getX` reads. -/
theorem registerFile : Obligations.RegisterFile := by
  intro s i j v
  refine ⟨?x0Reads, ?x0Discards, ?written, ?others, ?level, ?trap, ?interrupt⟩
  case x0Reads => exact s.getX_zero
  case x0Discards => exact s.setX_zero v
  case written => exact s.getX_setX_same i v
  case others => exact s.getX_setX_other i j v
  case level => exact fun _ => State.getX_congr rfl i
  case trap => exact fun epc cause tval => trapEnter_getX epc cause tval s i
  case interrupt => exact handleInterrupt_getX s i

end Sys2Proof.Machine
end

section
/-! Routing of a physical address (spec/20_memory.md R102): what one child of a node's list does with an address, and
by induction on the list, which device answers. -/

namespace Sys2Proof

open Sys2Proof.Claims

/-! ### One child -/

/-- A child whose range holds the address answers it, relative to the child's start (R102). -/
theorem Nodes.route_node_of_holds {st sp : Word} {d : Device} {sub : Nodes} {a : Word} (h : holds (st, sp, d, sub) a)
    (dev : Device) (next : Nodes) : (Nodes.node st sp d sub next).route dev a = sub.route d (a - st) :=
  if_pos h

/-- A child whose range does not hold the address leaves it to the children after it (R102). -/
theorem Nodes.route_node_of_not_holds {st sp : Word} {d : Device} {sub : Nodes} {a : Word}
    (h : ¬ holds (st, sp, d, sub) a) (dev : Device) (next : Nodes) :
    (Nodes.node st sp d sub next).route dev a = next.route dev a :=
  if_neg h

/-! ### The list of children -/

/-- The first child whose range holds the address takes it, by induction on the list: the head is that child when none
stands before it, and is otherwise one that the scan passes. -/
theorem Nodes.route_first_holding (dev : Device) {ns : Nodes} {a : Word}
    {before after : List (Word × Word × Device × Nodes)} {c : Word × Word × Device × Nodes}
    (hsplit : children ns = before ++ c :: after) (hbefore : ∀ d ∈ before, ¬ holds d a) (hc : holds c a) :
    ns.route dev a = c.2.2.2.route c.2.2.1 (a - c.1) := by
  induction ns generalizing before with
  | none => simp [children] at hsplit
  | node st sp d sub next _ ihNext =>
    rw [children] at hsplit
    cases before with
    | nil =>
      obtain ⟨rfl, -⟩ := List.cons.inj hsplit
      exact route_node_of_holds hc dev next
    | cons b rest =>
      obtain ⟨rfl, hrest⟩ := List.cons.inj hsplit
      obtain ⟨hhead, htail⟩ := List.forall_mem_cons.1 hbefore
      rw [route_node_of_not_holds hhead]
      exact ihNext hrest htail

/-- Where no child's range holds the address, the node's own device answers at it: the scan passes every child. -/
theorem Nodes.route_none_holding (dev : Device) {ns : Nodes} {a : Word} (h : ∀ d ∈ children ns, ¬ holds d a) :
    ns.route dev a = (dev, a) := by
  induction ns with
  | none => rfl
  | node st sp d sub next _ ihNext =>
    rw [children, List.forall_mem_cons] at h
    obtain ⟨hhead, htail⟩ := h
    rw [route_node_of_not_holds hhead]
    exact ihNext htail

namespace Machine

/-- Settles O21: the root is a node with the map's device, and the scan of a node's children ends at the first that
holds the address or passes them all. -/
theorem routing : Obligations.Routing := by
  refine ⟨?root, fun dev ns a => ⟨?first, ?own⟩⟩
  case root => exact fun m pa => rfl
  case first => exact fun before c after => Nodes.route_first_holding dev
  case own => exact Nodes.route_none_holding dev

end Machine

end Sys2Proof
end

section
/-! The integer computation instructions (spec/40_integer_alu.md R231 to R260). Each is settled in the same three parts:
its word is the one the encoder places, so it decodes by the round trip of `Laws/RoundTrip`; its arm of `exec` is one
`writeReg`; and the value that arm writes is the one the statement spells. -/

namespace Sys2Proof.Machine

open Sys2Proof.Claims Sys2Proof.Laws

/-! ### The words of the statements are those the encoder places (R173, R174, R177, R179) -/

theorem wordR_eq_join (f7 : BitVec 7) (f3 : BitVec 3) (op : BitVec 7) (rd rs1 rs2 : RegIdx) :
    wordR f7 f3 op rd rs1 rs2 = .full (Fields32.typeR op f3 f7 rd rs1 rs2).join := rfl

theorem wordI_eq_join (f3 : BitVec 3) (op : BitVec 7) (rd rs1 : RegIdx) (imm : BitVec 12) :
    wordI f3 op rd rs1 imm = .full (Fields32.typeI op f3 rd rs1 imm).join :=
  congrArg (fun v : BitVec 12 => InstBits.full (v ++ rs1 ++ f3 ++ rd ++ op))
    (Fields32.immI_typeI op f3 rd rs1 imm).symm

theorem wordU_eq_join (op : BitVec 7) (rd : RegIdx) (imm : BitVec 20) :
    wordU op rd imm = .full (Fields32.typeU op rd imm).join :=
  congrArg (fun v : BitVec 20 => InstBits.full (v ++ rd ++ op)) (Fields32.immU_typeU op rd imm).symm

/-- The twelve bits above rs1 of an I-shift64 word, cut as the statement cuts them (6 + 6) and as the format does. -/
theorem immI_typeShift64 (op : BitVec 7) (f3 : BitVec 3) (f6 : BitVec 6) (rd rs1 : RegIdx) (shamt : BitVec 6) :
    (Fields32.typeShift64 op f3 f6 rd rs1 shamt).immI = f6 ++ shamt := by
  apply BitVec.eq_of_getLsbD_eq
  intro i hi
  simp only [Fields32.typeShift64, Fields32.immI, BitVec.getLsbD_append, BitVec.getLsbD_extractLsb']
  interval_cases i <;> rfl

theorem wordSh_eq_join (f6 : BitVec 6) (f3 : BitVec 3) (rd rs1 : RegIdx) (shamt : BitVec 6) :
    wordSh f6 f3 rd rs1 shamt = .full (Fields32.typeShift64 0x13 f3 f6 rd rs1 shamt).join :=
  congrArg (fun v : BitVec 12 => InstBits.full (v ++ rs1 ++ f3 ++ rd ++ 0x13#7))
    (immI_typeShift64 0x13 f3 f6 rd rs1 shamt).symm

/-! ### An instruction that writes one register -/

/-- `writeReg` of a 32-bit instruction leaves the state `put` (R230, R33): the register write keeps the pc. -/
theorem writeReg_eq_put (rd : RegIdx) (v : Word) (s : State) : writeReg ilen4 rd v s = .next (put s rd v 4) := by
  rw [writeReg, State.advance, State.setX_pc]
  rfl

/-- A well-formed instruction at its own encoding whose arm writes one register. -/
theorem does_put {w : InstBits} {i : Instr} {s : State} {rd : RegIdx} {u v : Word} (hrt : RoundTrip.Statement i)
    (hwf : WellFormed i) (hw : w = encode i) (hexec : exec i s = writeReg ilen4 rd u s) (hval : u = v) :
    Does w i s (put s rd v 4) :=
  ⟨hw ▸ hrt hwf, by rw [hexec, writeReg_eq_put, hval]⟩

/-! ### Operands (R16, R174, R179, R261) -/

theorem low32_eq_lo (a : Word) : low32 a = lo a := (BitVec.setWidth_eq_extractLsb' (by decide)).symm

theorem toInt_imm12 (imm : BitVec 12) : (imm12 imm).toInt = imm.toInt :=
  BitVec.toInt_signExtend_of_le (by decide)

/-- The count of a 64-bit shift: the low six bits of the register. -/
theorem toNat_low6 (b : Word) : (b.extractLsb' 0 6).toNat = b.toNat % 64 := BitVec.extractLsb'_toNat 0 6 b

/-- The count of a word shift: the low five bits of the register. -/
theorem toNat_low5 (b : Word) : (b.extractLsb' 0 5).toNat = b.toNat % 32 := BitVec.extractLsb'_toNat 0 5 b

/-- A shift-amount field of k bits, zero-extended, is its own low k bits. -/
theorem toNat_zext_mod {k : Nat} (hk : k ≤ 64) (shamt : BitVec k) : (zext shamt).toNat % 2 ^ k = shamt.toNat := by
  rw [zext, BitVec.toNat_setWidth_of_le hk, Nat.mod_eq_of_lt shamt.isLt]

theorem toNat_zext_mod_64 (shamt : BitVec 6) : (zext shamt).toNat % 64 = shamt.toNat :=
  toNat_zext_mod (by decide) shamt

theorem toNat_zext_mod_32 (shamt : BitVec 5) : (zext shamt).toNat % 32 = shamt.toNat :=
  toNat_zext_mod (by decide) shamt

theorem flagWord_decide (p : Prop) [Decidable p] : flagWord (decide p) = flag p := by
  simp only [flagWord, flag, decide_eq_true_eq]

/-! ### Values: comparisons (R234, R235) -/

theorem sltVal_eq (a b : Word) : sltVal a b = flag (a.toInt < b.toInt) := flagWord_decide _

theorem sltuVal_eq (a b : Word) : sltuVal a b = flag (a.toNat < b.toNat) := flagWord_decide _

/-! ### Values: shifts take the low six bits of the count, word shifts the low five (R261) -/

theorem sllVal_eq (a b : Word) : sllVal a b = a <<< (b.toNat % 64) := by
  rw [sllVal, toNat_low6]

theorem srlVal_eq (a b : Word) : srlVal a b = a >>> (b.toNat % 64) := by
  rw [srlVal, toNat_low6]

theorem sraVal_eq (a b : Word) : sraVal a b = a.sshiftRight (b.toNat % 64) := by
  rw [sraVal, toNat_low6]

theorem sllwVal_eq (a b : Word) : sllwVal a b = (lo a <<< (b.toNat % 32)).signExtend 64 := by
  rw [sllwVal, toNat_low5, low32_eq_lo, sext]

theorem srlwVal_eq (a b : Word) : srlwVal a b = (lo a >>> (b.toNat % 32)).signExtend 64 := by
  rw [srlwVal, toNat_low5, low32_eq_lo, sext]

theorem srawVal_eq (a b : Word) : srawVal a b = ((lo a).sshiftRight (b.toNat % 32)).signExtend 64 := by
  rw [srawVal, toNat_low5, low32_eq_lo, sext]

/-! ### Values: the word sum and difference are the low halves of the 64-bit ones (R242, R256, R257) -/

theorem lo_add (a b : Word) : lo (a + b) = lo a + lo b := BitVec.setWidth_add a b (by decide)

theorem lo_neg (a : Word) : lo (-a) = -lo a := BitVec.setWidth_neg_of_le (by decide)

theorem lo_sub (a b : Word) : lo (a - b) = lo a - lo b := by
  rw [BitVec.sub_eq_add_neg, lo_add, lo_neg, ← BitVec.sub_eq_add_neg]

theorem addwVal_eq (a b : Word) : addwVal a b = (lo (a + b)).signExtend 64 := by
  rw [addwVal, low32_eq_lo, low32_eq_lo, lo_add, sext]

theorem subwVal_eq (a b : Word) : subwVal a b = (lo (a - b)).signExtend 64 := by
  rw [subwVal, low32_eq_lo, low32_eq_lo, lo_sub, sext]

/-! ### The instructions -/

/-- Settles O7: one register write per instruction; SLTI compares with the sign-extended immediate, whose value is the
field's, and a shift amount is its own low six bits. -/
theorem immediateForms : Obligations.ImmediateForms := by
  intro s rd rs1 imm imm20 shamt
  refine ⟨?lui, ?auipc, ?addi, ?slti, ?sltiu, ?xori, ?ori, ?andi, ?slli, ?srli, ?srai⟩
  case lui => exact does_put (RoundTrip.lui rd imm20) rfl (wordU_eq_join ..) rfl rfl
  case auipc => exact does_put (RoundTrip.auipc rd imm20) rfl (wordU_eq_join ..) rfl rfl
  case addi => exact does_put (RoundTrip.addi rd rs1 imm) rfl (wordI_eq_join ..) rfl rfl
  case slti =>
    exact does_put (RoundTrip.slti rd rs1 imm) rfl (wordI_eq_join ..) rfl (by simp only [sltVal_eq, toInt_imm12])
  case sltiu => exact does_put (RoundTrip.sltiu rd rs1 imm) rfl (wordI_eq_join ..) rfl (sltuVal_eq ..)
  case xori => exact does_put (RoundTrip.xori rd rs1 imm) rfl (wordI_eq_join ..) rfl rfl
  case ori => exact does_put (RoundTrip.ori rd rs1 imm) rfl (wordI_eq_join ..) rfl rfl
  case andi => exact does_put (RoundTrip.andi rd rs1 imm) rfl (wordI_eq_join ..) rfl rfl
  case slli =>
    exact does_put (RoundTrip.slli rd rs1 shamt) rfl (wordSh_eq_join ..) rfl (by rw [sllVal_eq, toNat_zext_mod_64])
  case srli =>
    exact does_put (RoundTrip.srli rd rs1 shamt) rfl (wordSh_eq_join ..) rfl (by rw [srlVal_eq, toNat_zext_mod_64])
  case srai =>
    exact does_put (RoundTrip.srai rd rs1 shamt) rfl (wordSh_eq_join ..) rfl (by rw [sraVal_eq, toNat_zext_mod_64])

/-- Settles O8: the low half of a sum is the sum of the low halves, and a word shift's count is the low five bits. -/
theorem wordForms : Obligations.WordForms := by
  intro s rd rs1 rs2 imm shamt a b n
  refine ⟨?addiw, ?slliw, ?srliw, ?sraiw, ?addw, ?subw, ?sllw, ?srlw, ?sraw⟩
  case addiw => exact does_put (RoundTrip.addiw rd rs1 imm) rfl (wordI_eq_join ..) rfl (addwVal_eq ..)
  case slliw =>
    exact does_put (RoundTrip.slliw rd rs1 shamt) rfl (wordR_eq_join ..) rfl (by rw [sllwVal_eq, toNat_zext_mod_32])
  case srliw =>
    exact does_put (RoundTrip.srliw rd rs1 shamt) rfl (wordR_eq_join ..) rfl (by rw [srlwVal_eq, toNat_zext_mod_32])
  case sraiw =>
    exact does_put (RoundTrip.sraiw rd rs1 shamt) rfl (wordR_eq_join ..) rfl (by rw [srawVal_eq, toNat_zext_mod_32])
  case addw => exact does_put (RoundTrip.addw rd rs1 rs2) rfl (wordR_eq_join ..) rfl (addwVal_eq a b)
  case subw => exact does_put (RoundTrip.subw rd rs1 rs2) rfl (wordR_eq_join ..) rfl (subwVal_eq a b)
  case sllw => exact does_put (RoundTrip.sllw rd rs1 rs2) rfl (wordR_eq_join ..) rfl (sllwVal_eq a b)
  case srlw => exact does_put (RoundTrip.srlw rd rs1 rs2) rfl (wordR_eq_join ..) rfl (srlwVal_eq a b)
  case sraw => exact does_put (RoundTrip.sraw rd rs1 rs2) rfl (wordR_eq_join ..) rfl (srawVal_eq a b)

/-- Settles O9: the operands are read before `rd` is written, so `rd` may be one of them; a shift's count is the low six
bits. -/
theorem registerForms : Obligations.RegisterForms := by
  intro s rd rs1 rs2 a b n
  refine ⟨?add, ?sub, ?sll, ?slt, ?sltu, ?xor, ?srl, ?sra, ?or, ?and⟩
  case add => exact does_put (RoundTrip.add rd rs1 rs2) rfl (wordR_eq_join ..) rfl rfl
  case sub => exact does_put (RoundTrip.sub rd rs1 rs2) rfl (wordR_eq_join ..) rfl rfl
  case sll => exact does_put (RoundTrip.sll rd rs1 rs2) rfl (wordR_eq_join ..) rfl (sllVal_eq a b)
  case slt => exact does_put (RoundTrip.slt rd rs1 rs2) rfl (wordR_eq_join ..) rfl (sltVal_eq a b)
  case sltu => exact does_put (RoundTrip.sltu rd rs1 rs2) rfl (wordR_eq_join ..) rfl (sltuVal_eq a b)
  case xor => exact does_put (RoundTrip.xor rd rs1 rs2) rfl (wordR_eq_join ..) rfl rfl
  case srl => exact does_put (RoundTrip.srl rd rs1 rs2) rfl (wordR_eq_join ..) rfl (srlVal_eq a b)
  case sra => exact does_put (RoundTrip.sra rd rs1 rs2) rfl (wordR_eq_join ..) rfl (sraVal_eq a b)
  case or => exact does_put (RoundTrip.or rd rs1 rs2) rfl (wordR_eq_join ..) rfl rfl
  case and => exact does_put (RoundTrip.and rd rs1 rs2) rfl (wordR_eq_join ..) rfl rfl

end Sys2Proof.Machine
end

section
/-! Control transfer: JAL and the six branches (spec/41_control_transfer.md R293, R295 to R300). The words are those
the encoder places, so they decode by the round trip; each branch is the shared `branch` with its own test. -/

namespace Sys2Proof.Machine

open Sys2Proof.Claims Sys2Proof.Laws

/-! ### The words of the statement are those the encoder places (R176, R178) -/

theorem wordB_eq_join (f3 : BitVec 3) (rs1 rs2 : RegIdx) (off : BitVec 12) :
    wordB f3 rs1 rs2 off = .full (Fields32.typeB 0x63 f3 rs1 rs2 off).join :=
  congrArg (fun v : BitVec 25 => InstBits.full (v ++ 0x63#7)) BitVec.append_assoc

/-- The twenty bits above rd of a J word, cut as the statement cuts the offset and as the fields of the format do. -/
theorem immU_typeJ (op : BitVec 7) (rd : RegIdx) (off : BitVec 20) :
    (Fields32.typeJ op rd off).immU =
      off.extractLsb' 19 1 ++ off.extractLsb' 0 10 ++ off.extractLsb' 10 1 ++ off.extractLsb' 11 8 := by
  apply BitVec.eq_of_getLsbD_eq
  intro i hi
  simp only [Fields32.typeJ, Fields32.immU, BitVec.getLsbD_append, BitVec.getLsbD_extractLsb']
  interval_cases i <;> rfl

theorem wordJ_eq_join (rd : RegIdx) (off : BitVec 20) : wordJ rd off = .full (Fields32.typeJ 0x6F rd off).join :=
  congrArg (fun v : BitVec 20 => InstBits.full (v ++ rd ++ 0x6F#7)) (immU_typeJ 0x6F rd off).symm

/-! ### The two halves of `Does`: the decoded word, and the outcome of `exec` -/

/-- A well-formed instruction at its own encoding does what `exec` says. -/
theorem does_of_encode {w : InstBits} {i : Instr} {s t : State} (hrt : RoundTrip.Statement i) (hwf : WellFormed i)
    (hw : w = encode i) (hexec : exec i s = .next t) : Does w i s t :=
  ⟨hw ▸ hrt hwf, hexec⟩

/-- A branch whose test decides `p` goes to `pc + off` where `p` holds and else to the next instruction. -/
theorem branch_eq_ite {taken : Bool} {p : Prop} [Decidable p] (h : taken = true ↔ p) (ilen off : Word) (s : State) :
    branch ilen taken off s = .next (s.setPc (if p then s.pc + off else s.pc + ilen)) := by
  simp only [branch, h]

/-! ### The instructions -/

/-- Settles O13: JAL is one `jumpLink` with the pc of the instruction as its base; each branch's test decides the
comparison of the statement; BNE's decides `a ≠ b`, so the statement's two arms are swapped first. -/
theorem jalAndBranches : Obligations.JalAndBranches := by
  intro s rd rs1 rs2 off20 off a b t n
  refine ⟨?jal, ?beq, ?bne, ?blt, ?bge, ?bltu, ?bgeu⟩
  case jal => exact does_of_encode (RoundTrip.jal rd off20) rfl (wordJ_eq_join ..) rfl
  case beq =>
    exact does_of_encode (RoundTrip.beq rs1 rs2 off) rfl (wordB_eq_join ..) (branch_eq_ite beq_iff_eq ..)
  case bne =>
    rw [← ite_not (a = b)]
    exact does_of_encode (RoundTrip.bne rs1 rs2 off) rfl (wordB_eq_join ..) (branch_eq_ite bne_iff_ne ..)
  case blt =>
    exact does_of_encode (RoundTrip.blt rs1 rs2 off) rfl (wordB_eq_join ..) (branch_eq_ite decide_eq_true_iff ..)
  case bge =>
    exact does_of_encode (RoundTrip.bge rs1 rs2 off) rfl (wordB_eq_join ..) (branch_eq_ite decide_eq_true_iff ..)
  case bltu =>
    exact does_of_encode (RoundTrip.bltu rs1 rs2 off) rfl (wordB_eq_join ..) (branch_eq_ite decide_eq_true_iff ..)
  case bgeu =>
    exact does_of_encode (RoundTrip.bgeu rs1 rs2 off) rfl (wordB_eq_join ..) (branch_eq_ite decide_eq_true_iff ..)

end Sys2Proof.Machine
end

section
/-! The M extension (spec/43_m_extension.md R331 to R343): the halves of the exact product, and the quotients and
remainders with their cases told apart by the signed values of the operands. -/

namespace Sys2Proof.Machine

open Sys2Proof.Claims Sys2Proof.Laws

/-! ### Products: a low half is the product of any width, a high half the product divided by 2^64 (R331 to R335) -/

/-- The machine product is the exact signed product, narrowed. -/
theorem mul_eq_ofInt_toInt_mul {n : Nat} (a b : BitVec n) : a * b = BitVec.ofInt n (a.toInt * b.toInt) := by
  rw [BitVec.ofInt_mul, BitVec.ofInt_toInt, BitVec.ofInt_toInt]

/-- Bits 127:64 of an exact product are its quotient by 2^64, rounded down and narrowed (R330). -/
theorem highHalf_eq_ofInt_ediv (p : Int) : highHalf p = BitVec.ofInt 64 (p / 2 ^ 64) := by
  apply BitVec.eq_of_toNat_eq
  rw [highHalf, BitVec.extractLsb'_toNat, BitVec.toNat_ofInt, BitVec.toNat_ofInt, Nat.shiftRight_eq_div_pow]
  omega

theorem mulhuVal_eq (a b : Word) : mulhuVal a b = BitVec.ofNat 64 (a.toNat * b.toNat / 2 ^ 64) := by
  rw [mulhuVal, highHalf_eq_ofInt_ediv, ← BitVec.ofInt_natCast]
  norm_cast

theorem mulwVal_eq (a b : Word) :
    mulwVal a b = (BitVec.ofInt 32 ((lo a).toInt * (lo b).toInt)).signExtend 64 := by
  rw [mulwVal, low32_eq_lo, low32_eq_lo, mul_eq_ofInt_toInt_mul, sext]

/-! ### The overflow case: the most negative dividend and the divisor -1, by their values (R330) -/

theorem eq_intMin_iff_toInt {k : Nat} (a : BitVec (k + 1)) : a = BitVec.intMin (k + 1) ↔ a.toInt = -2 ^ k := by
  rw [← BitVec.toInt_inj, BitVec.toInt_intMin_of_pos k.succ_pos, Nat.succ_sub_one]

theorem eq_allOnes_iff_toInt {k : Nat} (b : BitVec (k + 1)) : b = BitVec.allOnes (k + 1) ↔ b.toInt = -1 := by
  rw [← BitVec.toInt_inj, BitVec.toInt_allOnes, if_pos k.succ_pos]

/-! ### Quotients and remainders of any width, their overflow case told by values -/

theorem divSigned_eq {k : Nat} (a b : BitVec (k + 1)) :
    divSigned a b = if b = 0 then BitVec.allOnes (k + 1)
      else if a.toInt = -2 ^ k ∧ b.toInt = -1 then BitVec.intMin (k + 1)
      else BitVec.ofInt (k + 1) (a.toInt.tdiv b.toInt) := by
  simp only [divSigned, eq_intMin_iff_toInt, eq_allOnes_iff_toInt]

theorem remSigned_eq {k : Nat} (a b : BitVec (k + 1)) :
    remSigned a b = if b = 0 then a
      else if a.toInt = -2 ^ k ∧ b.toInt = -1 then 0
      else BitVec.ofInt (k + 1) (a.toInt - b.toInt * a.toInt.tdiv b.toInt) := by
  simp only [remSigned, eq_intMin_iff_toInt, eq_allOnes_iff_toInt]

/-! ### Values: the word forms extend each case of the 32-bit result (R340 to R343) -/

theorem divwVal_eq (a b : Word) :
    divwVal a b = if lo b = 0 then 0xFFFFFFFFFFFFFFFF
      else if (lo a).toInt = -2 ^ 31 ∧ (lo b).toInt = -1 then 0xFFFFFFFF80000000
      else (BitVec.ofInt 32 ((lo a).toInt.tdiv (lo b).toInt)).signExtend 64 := by
  rw [divwVal, low32_eq_lo, low32_eq_lo, divSigned_eq, apply_ite sext, apply_ite sext]
  rfl

theorem divuwVal_eq (a b : Word) :
    divuwVal a b = if lo b = 0 then 0xFFFFFFFFFFFFFFFF
      else (BitVec.ofNat 32 ((lo a).toNat / (lo b).toNat)).signExtend 64 := by
  rw [divuwVal, low32_eq_lo, low32_eq_lo, divUnsigned, apply_ite sext]
  rfl

theorem remwVal_eq (a b : Word) :
    remwVal a b = if lo b = 0 then (lo a).signExtend 64
      else if (lo a).toInt = -2 ^ 31 ∧ (lo b).toInt = -1 then 0
      else (BitVec.ofInt 32 ((lo a).toInt - (lo b).toInt * (lo a).toInt.tdiv (lo b).toInt)).signExtend 64 := by
  rw [remwVal, low32_eq_lo, low32_eq_lo, remSigned_eq, apply_ite sext, apply_ite sext]
  rfl

theorem remuwVal_eq (a b : Word) :
    remuwVal a b = if lo b = 0 then (lo a).signExtend 64
      else (BitVec.ofNat 32 ((lo a).toNat % (lo b).toNat)).signExtend 64 := by
  rw [remuwVal, low32_eq_lo, low32_eq_lo, remUnsigned, apply_ite sext]
  rfl

/-! ### The instructions -/

/-- Settles O10: MUL and MULW are the signed product narrowed, the three high halves one division by 2^64. -/
theorem multiplyForms : Obligations.MultiplyForms := by
  intro s rd rs1 rs2 a b
  refine ⟨?mul, ?mulh, ?mulhsu, ?mulhu, ?mulw⟩
  case mul =>
    exact does_put (RoundTrip.mul rd rs1 rs2) rfl (wordR_eq_join ..) rfl (mul_eq_ofInt_toInt_mul a b)
  case mulh => exact does_put (RoundTrip.mulh rd rs1 rs2) rfl (wordR_eq_join ..) rfl (highHalf_eq_ofInt_ediv _)
  case mulhsu => exact does_put (RoundTrip.mulhsu rd rs1 rs2) rfl (wordR_eq_join ..) rfl (highHalf_eq_ofInt_ediv _)
  case mulhu => exact does_put (RoundTrip.mulhu rd rs1 rs2) rfl (wordR_eq_join ..) rfl (mulhuVal_eq a b)
  case mulw => exact does_put (RoundTrip.mulw rd rs1 rs2) rfl (wordR_eq_join ..) rfl (mulwVal_eq a b)

/-- Settles O11: each division writes one register in every case, and the operands that the model compares as bit
vectors are those the statement names by value. -/
theorem divideForms : Obligations.DivideForms := by
  intro s rd rs1 rs2 a b aw bw
  refine ⟨?div, ?divu, ?rem, ?remu, ?divw, ?divuw, ?remw, ?remuw⟩
  case div => exact does_put (RoundTrip.div rd rs1 rs2) rfl (wordR_eq_join ..) rfl (divSigned_eq a b)
  case divu => exact does_put (RoundTrip.divu rd rs1 rs2) rfl (wordR_eq_join ..) rfl rfl
  case rem => exact does_put (RoundTrip.rem rd rs1 rs2) rfl (wordR_eq_join ..) rfl (remSigned_eq a b)
  case remu => exact does_put (RoundTrip.remu rd rs1 rs2) rfl (wordR_eq_join ..) rfl rfl
  case divw => exact does_put (RoundTrip.divw rd rs1 rs2) rfl (wordR_eq_join ..) rfl (divwVal_eq a b)
  case divuw => exact does_put (RoundTrip.divuw rd rs1 rs2) rfl (wordR_eq_join ..) rfl (divuwVal_eq a b)
  case remw => exact does_put (RoundTrip.remw rd rs1 rs2) rfl (wordR_eq_join ..) rfl (remwVal_eq a b)
  case remuw => exact does_put (RoundTrip.remuw rd rs1 rs2) rfl (wordR_eq_join ..) rfl (remuwVal_eq a b)

end Sys2Proof.Machine
end

section
/-! System instructions that neither trap nor return (spec/46_system_privileged.md R412, R415, R416, R418): the no-ops
share one arm of `exec`, the `nop` that only goes on, and URET is the trap exit that no level has. -/

namespace Sys2Proof.Machine

open Sys2Proof.Claims Sys2Proof.Laws

/-- A well-formed instruction at its own encoding whose arm only goes on: the pc advances by four, nothing else moves. -/
theorem does_nop {w : InstBits} {i : Instr} {s : State} (hrt : RoundTrip.Statement i) (hwf : WellFormed i)
    (hw : w = encode i) (hexec : exec i s = nop ilen4 s) : Does w i s (s.setPc (s.pc + 4)) :=
  does_of_encode hrt hwf hw hexec

/-- Trap exit stops on URET before it looks at the privilege level (R412). -/
theorem trapExit_uret (s : State) : trapExit .uret s = .fatal (.badTrapExit .uret) := rfl

/-! ### The instructions -/

/-- Settles O35: the three words are those the encoder places, and each arm is the same `nop`, which reads neither the
fields nor the level. -/
theorem noOperationForms : Obligations.NoOperationForms := by
  intro s rs1 rs2 rd imm
  refine ⟨?wfi, ?sfenceVma, ?fenceI⟩
  case wfi => exact does_nop RoundTrip.wfi rfl rfl rfl
  case sfenceVma => exact does_nop (RoundTrip.sfenceVma rs1 rs2) rfl (wordR_eq_join ..) rfl
  case fenceI => exact does_nop (RoundTrip.fenceI imm rs1 rd) rfl (wordI_eq_join ..) rfl

/-- Settles O37: the word is the encoding of URET, whose arm is the trap exit that stops at every level. -/
theorem uretStops : Obligations.UretStops := by
  intro s
  have hexec : exec .uret s = (trapExit .uret s).finish := rfl
  exact ⟨RoundTrip.uret rfl, by rw [hexec, trapExit_uret, Res.finish]⟩

end Sys2Proof.Machine
end

section
/-! The C extension (spec/47_c_extension.md): the unassigned spaces (R435, R462) and the shift and register forms (R453
to R461, R470, R479, R481). As for the 32-bit instructions: the parcel is the one the encoder places, so it decodes by
the round trip, and the arm of `exec` is one `writeReg` of the 32-bit operation's value, or the stop of an unassigned
row. -/

namespace Sys2Proof

/-! ### The columns of a parcel, joined (R210, R211) -/

/-- Registers spelled whole: each is two columns that stand side by side. -/
theorem Fields16.join_eq_append_regs (f : Fields16) :
    f.join = f.funct3 ++ f.b12 ++ f.r ++ f.r2 ++ f.quadrant := by
  have hr : f.funct3 ++ f.b12 ++ f.b11_10 ++ f.b9_7 = f.funct3 ++ f.b12 ++ f.r := BitVec.append_assoc
  have hr2 : f.funct3 ++ f.b12 ++ f.r ++ f.b6_5 ++ f.b4_2 = f.funct3 ++ f.b12 ++ f.r ++ f.r2 := BitVec.append_assoc
  rw [join, hr, hr2]

/-- The same where inst[11:10] is no part of a register. -/
theorem Fields16.join_eq_append_r2 (f : Fields16) :
    f.join = f.funct3 ++ f.b12 ++ f.b11_10 ++ f.b9_7 ++ f.r2 ++ f.quadrant :=
  congrArg (· ++ f.quadrant) BitVec.append_assoc

theorem Fields16.join_eq_append_above (f : Fields16) : f.join = f.funct3 ++ f.above ++ f.quadrant := by
  apply BitVec.eq_of_getLsbD_eq
  intro i hi
  simp only [join, above, BitVec.getLsbD_append]
  interval_cases i <;> rfl

/-- A CI parcel holds the low five bits of its immediate in the columns of r2. -/
@[simp] theorem Fields16.r2_typeCI (q : BitVec 2) (f3 : BitVec 3) (r : RegIdx) (imm : BitVec 6) :
    (Fields16.typeCI q f3 r imm).r2 = imm.extractLsb' 0 5 :=
  BitVec.extractLsb'_append_extractLsb'_eq_extractLsb' rfl

/-- So does a CB parcel with a shift amount or an immediate. -/
@[simp] theorem Fields16.r2_typeCBImm (f2 : BitVec 2) (r : CRegIdx) (imm : BitVec 6) :
    (Fields16.typeCBImm f2 r imm).r2 = imm.extractLsb' 0 5 :=
  BitVec.extractLsb'_append_extractLsb'_eq_extractLsb' rfl

theorem Fields16.join_typeAny (q : BitVec 2) (f3 : BitVec 3) (b : BitVec 11) :
    (Fields16.typeAny q f3 b).join = f3 ++ b ++ q := by
  rw [Fields16.join_eq_append_above, Fields16.above_typeAny]
  rfl

/-- The CA parcel of the unassigned space, with inst[6] and inst[5] apart (R462). -/
theorem Fields16.join_typeCA_reserved (rd : CRegIdx) (low : BitVec 1) (rs2 : CRegIdx) :
    (Fields16.typeCA 1 (1#1 ++ low) rd rs2).join = 0b100111#6 ++ rd ++ 0b1#1 ++ low ++ rs2 ++ 0b01#2 := by
  have hcut : 0b100111#6 ++ rd ++ 0b1#1 ++ low = 0b100111#6 ++ rd ++ (0b1#1 ++ low) := BitVec.append_assoc
  have hfunct6 : 0b100111#6 = 0b100#3 ++ 1#1 ++ 0b11#2 := rfl
  rw [hcut, hfunct6]
  rfl

namespace Machine

open Sys2Proof.Claims Sys2Proof.Laws

/-! ### The parcels of the statements are those the encoder places -/

theorem parcelCI_eq_join (f3 : BitVec 3) (q : BitVec 2) (r : RegIdx) (imm : BitVec 6) :
    parcelCI f3 q r imm = .half (Fields16.typeCI q f3 r imm).join := by
  rw [Fields16.join_eq_append_regs, Fields16.r_typeCI, Fields16.r2_typeCI]
  rfl

theorem parcelCB_eq_join (f2 : BitVec 2) (r : CRegIdx) (imm : BitVec 6) :
    parcelCB f2 r imm = .half (Fields16.typeCBImm f2 r imm).join := by
  rw [Fields16.join_eq_append_r2, Fields16.r2_typeCBImm]
  rfl

theorem parcelCA_eq_join (b : BitVec 1) (f2 : BitVec 2) (r r2 : CRegIdx) :
    parcelCA (0b100#3 ++ b ++ 0b11#2) f2 r r2 = .half (Fields16.typeCA b f2 r r2).join := rfl

theorem parcelCR_eq_join (b : BitVec 1) (r r2 : RegIdx) :
    parcelCR (0b100#3 ++ b) r r2 = .half (Fields16.typeCR b r r2).join := by
  rw [Fields16.join_eq_append_regs, Fields16.r_typeCR, Fields16.r2_typeCR]
  rfl

/-! ### A compressed instruction that writes one register -/

/-- At either length of an instruction, `writeReg` leaves the state `put` (R230, R33). -/
theorem writeReg_eq_put_of_length (len : Word) (rd : RegIdx) (v : Word) (s : State) :
    writeReg len rd v s = .next (put s rd v len) := by
  rw [writeReg, State.advance, State.setX_pc]
  rfl

/-- A well-formed compressed instruction at its own encoding whose arm writes one register. -/
theorem does_put_compressed {w : InstBits} {i : Instr} {s : State} {rd : RegIdx} {u v : Word}
    (hrt : RoundTrip.Statement i) (hwf : WellFormed i) (hw : w = encode i) (hexec : exec i s = writeReg ilen2 rd u s)
    (hval : u = v) : Does w i s (put s rd v 2) :=
  does_of_encode hrt hwf hw (by rw [hexec, writeReg_eq_put_of_length, hval]; rfl)

/-- C.MV adds to x0, which reads 0 (R479). -/
theorem addVal_getX_x0 (s : State) (v : Word) : addVal (s.getX x0) v = v := BitVec.zero_add v

/-! ### An unassigned parcel -/

/-- A row whose arm stops with the bits of its own encoding: those are the parcel's, zero-extended (R205). -/
theorem unknownEncoding_of_encode {i : Instr} {p : BitVec 16} {s : State} (hrt : RoundTrip.Statement i)
    (hwf : WellFormed i) (henc : encode i = .half p) (hexec : exec i s = .fault (unassigned i)) :
    decode (.half p) = .ok i ∧ exec i s = .fault (.unknownEncoding (p.setWidth 32)) :=
  ⟨henc ▸ hrt hwf, by rw [hexec, unassigned, henc]⟩

/-! ### The instructions -/

/-- Settles O39: both spaces are rows of their own, whose encoding is the parcel of the statement. -/
theorem unassignedCompressed : Obligations.UnassignedCompressed := by
  intro s b rd rs2 low
  obtain ⟨hdecode0, hexec0⟩ := unknownEncoding_of_encode (s := s) (RoundTrip.cReservedQ0 b) rfl
    (congrArg InstBits.half (Fields16.join_typeAny 0 4 b)) rfl
  obtain ⟨hdecode1, hexec1⟩ := unknownEncoding_of_encode (s := s) (RoundTrip.cReservedQ1 rd low rs2) rfl
    (congrArg InstBits.half (Fields16.join_typeCA_reserved rd low rs2)) rfl
  exact ⟨hdecode0, hexec0, hdecode1, hexec1⟩

/-- Settles O42: the operands are read before the destination is written; a shift amount is its own low six bits. C.MV
and C.ADD need `r2 ≠ 0` to be the rows of these parcels. -/
theorem compressedRegisterForms : Obligations.CompressedRegisterForms := by
  intro s d e r r2 i6 a b
  refine ⟨?srli, ?srai, ?andi, ?sub, ?xor, ?or, ?and, ?subw, ?addw, ?slli, ?mv, ?add⟩
  case srli =>
    exact does_put_compressed (RoundTrip.cSrli d i6) rfl (parcelCB_eq_join ..) rfl
      (by rw [srlVal_eq, toNat_zext_mod_64])
  case srai =>
    exact does_put_compressed (RoundTrip.cSrai d i6) rfl (parcelCB_eq_join ..) rfl
      (by rw [sraVal_eq, toNat_zext_mod_64])
  case andi => exact does_put_compressed (RoundTrip.cAndi d i6) rfl (parcelCB_eq_join ..) rfl rfl
  case sub => exact does_put_compressed (RoundTrip.cSub d e) rfl (parcelCA_eq_join 0 ..) rfl rfl
  case xor => exact does_put_compressed (RoundTrip.cXor d e) rfl (parcelCA_eq_join 0 ..) rfl rfl
  case or => exact does_put_compressed (RoundTrip.cOr d e) rfl (parcelCA_eq_join 0 ..) rfl rfl
  case and => exact does_put_compressed (RoundTrip.cAnd d e) rfl (parcelCA_eq_join 0 ..) rfl rfl
  case subw => exact does_put_compressed (RoundTrip.cSubw d e) rfl (parcelCA_eq_join 1 ..) rfl (subwVal_eq a b)
  case addw => exact does_put_compressed (RoundTrip.cAddw d e) rfl (parcelCA_eq_join 1 ..) rfl (addwVal_eq a b)
  case slli =>
    exact does_put_compressed (RoundTrip.cSlli r i6) rfl (parcelCI_eq_join ..) rfl
      (by rw [sllVal_eq, toNat_zext_mod_64])
  case mv =>
    intro hr2
    exact does_put_compressed (RoundTrip.cMv r r2) (decide_eq_true hr2) (parcelCR_eq_join 0 ..) rfl
      (addVal_getX_x0 s (s.getX r2))
  case add =>
    intro hr2
    exact does_put_compressed (RoundTrip.cAdd r r2) (decide_eq_true hr2) (parcelCR_eq_join 1 ..) rfl rfl

end Machine

end Sys2Proof
end

section
/-! Trap entry (spec/60_exceptions.md R530). The model writes the status word bit by bit, the statement with masks: each
half writes its field of the previous privilege level, then the previous enable from the enable, then clears the
enable. -/

namespace Sys2Proof.Machine

/-! ### A bit as a mask -/

theorem setBit_false (w : Word) (i : Nat) : setBit w i false = w &&& ~~~(1#64 <<< i) := rfl

/-- Setting the bits of a mask is clearing them first and setting them then. -/
theorem or_eq_clear_or (w m : Word) : w ||| m = (w &&& ~~~m) ||| m := by
  apply BitVec.eq_of_getLsbD_eq
  intro k hk
  rw [BitVec.getLsbD_or, BitVec.getLsbD_or, BitVec.getLsbD_and, BitVec.getLsbD_not, decide_eq_true hk]
  cases w.getLsbD k <;> cases m.getLsbD k <;> rfl

theorem setBit_eq_mask (w : Word) (i : Nat) (b : Bool) :
    setBit w i b = (w &&& ~~~(1#64 <<< i)) ||| (if b then 1#64 <<< i else 0) := by
  cases b with
  | false => exact BitVec.or_zero.symm
  | true => exact or_eq_clear_or w (1#64 <<< i)

/-- Clearing a mask that the field written before does not meet: both masks can be cleared before that write. -/
theorem clear_write_of_disjoint {w m v m' : Word} (h : v &&& ~~~m' = v) :
    ((w &&& ~~~m) ||| v) &&& ~~~m' = (w &&& ~~~(m ||| m')) ||| v := by
  rw [BitVec.and_or_distrib_right, h, BitVec.and_assoc, BitVec.not_or]

/-- The statement's mask of the shifted word is the bit that the model reads before it writes. -/
theorem shiftLeft_and_bit (w : Word) (i n : Nat) (h : i + n < 64) :
    (w <<< n) &&& (1#64 <<< (i + n)) = if w.getLsbD i then 1#64 <<< (i + n) else 0 := by
  have hbit : (w <<< n).getLsbD (i + n) = w.getLsbD i := by
    rw [BitVec.getLsbD_shiftLeft, decide_eq_true h, decide_eq_false (by omega), Nat.add_sub_cancel]
    rfl
  rw [← BitVec.twoPow_eq, BitVec.and_twoPow, hbit]
  rfl

/-! ### The status words of a trap entry -/

/-- What both halves do to a status word: with the field `v` of the previous level under the mask `m`, the enable in bit
`i` is saved four places up and cleared. The writes are one, because no field meets a mask written after it. -/
theorem status_of_entry (w m v : Word) (i : Nat) (hi : i + 4 < 64)
    (hprev : v &&& ~~~(1#64 <<< (i + 4)) = v) (henable : v &&& ~~~(1#64 <<< i) = v)
    (hbits : 1#64 <<< (i + 4) &&& ~~~(1#64 <<< i) = 1#64 <<< (i + 4)) :
    setBit (setBit ((w &&& ~~~m) ||| v) (i + 4) (w.getLsbD i)) i false =
      (w &&& ~~~(m ||| 1#64 <<< (i + 4) ||| 1#64 <<< i)) ||| ((w <<< 4) &&& (1#64 <<< (i + 4))) ||| v := by
  have hsaved : ((w <<< 4 &&& 1#64 <<< (i + 4)) ||| v) &&& ~~~(1#64 <<< i) = (w <<< 4 &&& 1#64 <<< (i + 4)) ||| v := by
    rw [BitVec.and_or_distrib_right, henable, BitVec.and_assoc, hbits]
  rw [setBit_eq_mask _ (i + 4), ← shiftLeft_and_bit w i 4 hi, clear_write_of_disjoint hprev, BitVec.or_assoc,
    BitVec.or_comm v, setBit_false, clear_write_of_disjoint hsaved, ← BitVec.or_assoc]

/-- The Supervisor half: SPP from the level, SPIE from SIE, SIE cleared. -/
theorem sstatus_of_entry (w : Word) (p : Bool) :
    setSIE (setSPIE (setSPP w p) (sstatusSIE w)) false =
      (w &&& ~~~(0x122 : Word)) ||| ((w <<< 4) &&& 0x20) ||| (if p then 0x100 else 0) := by
  rw [setSIE, setSPIE, setSPP, setBit_eq_mask w 8 p]
  exact status_of_entry w 0x100 (if p then 0x100 else 0) 1 (by decide) (by cases p <;> rfl) (by cases p <;> rfl) rfl

/-- The two bits of MPP are one field. -/
theorem setMPP_eq_mask (w : Word) (p : BitVec 2) :
    setMPP w p = (w &&& ~~~(0x1800 : Word)) ||| (p.setWidth 64 <<< 11) := by
  have hlow : ∀ b : Bool, (if b then 1#64 <<< 11 else 0) &&& ~~~(1#64 <<< 12) = if b then 1#64 <<< 11 else 0 := by
    decide
  have hfield : ∀ p : BitVec 2, (if p.getLsbD 0 then 1#64 <<< 11 else 0) |||
      (if p.getLsbD 1 then 1#64 <<< 12 else 0) = p.setWidth 64 <<< 11 := by decide
  rw [setMPP, setBit_eq_mask, setBit_eq_mask, clear_write_of_disjoint (hlow _), BitVec.or_assoc, hfield]
  rfl

/-- The Machine half: MPP from the level, MPIE from MIE, MIE cleared. -/
theorem mstatus_of_entry (w : Word) (p : BitVec 2) :
    setMIE (setMPIE (setMPP w p) (mstatusMIE w)) false =
      (w &&& ~~~(0x1888 : Word)) ||| ((w <<< 4) &&& (0x80 : Word)) ||| (p.setWidth 64 <<< 11) := by
  have hfield : ∀ p : BitVec 2, p.setWidth 64 <<< 11 &&& ~~~(1#64 <<< 7) = p.setWidth 64 <<< 11 ∧
      p.setWidth 64 <<< 11 &&& ~~~(1#64 <<< 3) = p.setWidth 64 <<< 11 := by decide
  obtain ⟨hprev, henable⟩ := hfield p
  rw [setMPP_eq_mask]
  exact status_of_entry w 0x1800 _ 3 (by decide) hprev henable rfl

/-! ### The two halves -/

/-- The delegation bit of `cause[5:0]`, and no delegation out of Machine mode (R530). -/
theorem trapsToSupervisor_iff (s : State) (cause : Word) :
    s.trapsToSupervisor cause = true ↔
      (if cause.getLsbD 63 then s.csr.mideleg.getLsbD (cause.toNat % 64)
        else s.csr.medeleg.getLsbD (cause.toNat % 64)) = true ∧ s.priv ≠ .machine := by
  rw [State.trapsToSupervisor, Bool.and_eq_true, decide_eq_true_iff, delegated, causeIsInterrupt, codeBit, codeBit,
    toNat_low6]

theorem trapEnter_of_toSupervisor {s : State} {cause : Word} (h : s.trapsToSupervisor cause = true)
    (epc tval : Word) : trapEnter epc cause tval s = trapToSupervisor epc cause tval s := if_pos h

theorem trapEnter_of_not_toSupervisor {s : State} {cause : Word} (h : ¬ s.trapsToSupervisor cause = true)
    (epc tval : Word) : trapEnter epc cause tval s = trapToMachine epc cause tval s := if_neg h

/-- Settles O46: the delegation test picks the half, and each half is the record of the statement once its status word
is written with masks. -/
theorem trapEntry : Obligations.TrapEntry := by
  intro epc cause tval s d
  have htarget : s.trapsToSupervisor cause = true ↔ d = true ∧ s.priv ≠ .machine := trapsToSupervisor_iff s cause
  refine ⟨fun hs => ?supervisor, fun hm => ?machine⟩
  case supervisor =>
    rw [trapEnter_of_toSupervisor (htarget.2 hs), trapToSupervisor, sstatus_of_entry]
    simp only [decide_eq_true_eq]
  case machine =>
    rw [trapEnter_of_not_toSupervisor (mt htarget.1 hm), trapToMachine, mstatus_of_entry]
    rfl

end Sys2Proof.Machine
end

section
/-! The decoder against the encoder (spec/30_encoding.md R170 to R216): decoding an encoding gives the instruction back,
one row at a time by its round trip in `Laws/PerInstr`. -/

namespace Sys2Proof.Machine

open Sys2Proof.Laws

/-- Every row of the opcode table by its own round trip. -/
theorem decode_encode (i : Instr) : RoundTrip.Statement i :=
  match i with
  | .lui _ _ => RoundTrip.lui _ _
  | .auipc _ _ => RoundTrip.auipc _ _
  | .addi _ _ _ => RoundTrip.addi _ _ _
  | .slti _ _ _ => RoundTrip.slti _ _ _
  | .sltiu _ _ _ => RoundTrip.sltiu _ _ _
  | .xori _ _ _ => RoundTrip.xori _ _ _
  | .ori _ _ _ => RoundTrip.ori _ _ _
  | .andi _ _ _ => RoundTrip.andi _ _ _
  | .slli _ _ _ => RoundTrip.slli _ _ _
  | .srli _ _ _ => RoundTrip.srli _ _ _
  | .srai _ _ _ => RoundTrip.srai _ _ _
  | .addiw _ _ _ => RoundTrip.addiw _ _ _
  | .slliw _ _ _ => RoundTrip.slliw _ _ _
  | .srliw _ _ _ => RoundTrip.srliw _ _ _
  | .sraiw _ _ _ => RoundTrip.sraiw _ _ _
  | .add _ _ _ => RoundTrip.add _ _ _
  | .sub _ _ _ => RoundTrip.sub _ _ _
  | .sll _ _ _ => RoundTrip.sll _ _ _
  | .slt _ _ _ => RoundTrip.slt _ _ _
  | .sltu _ _ _ => RoundTrip.sltu _ _ _
  | .xor _ _ _ => RoundTrip.xor _ _ _
  | .srl _ _ _ => RoundTrip.srl _ _ _
  | .sra _ _ _ => RoundTrip.sra _ _ _
  | .or _ _ _ => RoundTrip.or _ _ _
  | .and _ _ _ => RoundTrip.and _ _ _
  | .addw _ _ _ => RoundTrip.addw _ _ _
  | .subw _ _ _ => RoundTrip.subw _ _ _
  | .sllw _ _ _ => RoundTrip.sllw _ _ _
  | .srlw _ _ _ => RoundTrip.srlw _ _ _
  | .sraw _ _ _ => RoundTrip.sraw _ _ _
  | .jal _ _ => RoundTrip.jal _ _
  | .jalr _ _ _ => RoundTrip.jalr _ _ _
  | .beq _ _ _ => RoundTrip.beq _ _ _
  | .bne _ _ _ => RoundTrip.bne _ _ _
  | .blt _ _ _ => RoundTrip.blt _ _ _
  | .bge _ _ _ => RoundTrip.bge _ _ _
  | .bltu _ _ _ => RoundTrip.bltu _ _ _
  | .bgeu _ _ _ => RoundTrip.bgeu _ _ _
  | .lb _ _ _ => RoundTrip.lb _ _ _
  | .lh _ _ _ => RoundTrip.lh _ _ _
  | .lw _ _ _ => RoundTrip.lw _ _ _
  | .ld _ _ _ => RoundTrip.ld _ _ _
  | .lbu _ _ _ => RoundTrip.lbu _ _ _
  | .lhu _ _ _ => RoundTrip.lhu _ _ _
  | .lwu _ _ _ => RoundTrip.lwu _ _ _
  | .sb _ _ _ => RoundTrip.sb _ _ _
  | .sh _ _ _ => RoundTrip.sh _ _ _
  | .sw _ _ _ => RoundTrip.sw _ _ _
  | .sd _ _ _ => RoundTrip.sd _ _ _
  | .mul _ _ _ => RoundTrip.mul _ _ _
  | .mulh _ _ _ => RoundTrip.mulh _ _ _
  | .mulhsu _ _ _ => RoundTrip.mulhsu _ _ _
  | .mulhu _ _ _ => RoundTrip.mulhu _ _ _
  | .mulw _ _ _ => RoundTrip.mulw _ _ _
  | .div _ _ _ => RoundTrip.div _ _ _
  | .divu _ _ _ => RoundTrip.divu _ _ _
  | .rem _ _ _ => RoundTrip.rem _ _ _
  | .remu _ _ _ => RoundTrip.remu _ _ _
  | .divw _ _ _ => RoundTrip.divw _ _ _
  | .divuw _ _ _ => RoundTrip.divuw _ _ _
  | .remw _ _ _ => RoundTrip.remw _ _ _
  | .remuw _ _ _ => RoundTrip.remuw _ _ _
  | .lrW _ _ _ _ => RoundTrip.lrW _ _ _ _
  | .lrD _ _ _ _ => RoundTrip.lrD _ _ _ _
  | .scW _ _ _ _ _ => RoundTrip.scW _ _ _ _ _
  | .scD _ _ _ _ _ => RoundTrip.scD _ _ _ _ _
  | .amoswapW _ _ _ _ _ => RoundTrip.amoswapW _ _ _ _ _
  | .amoaddW _ _ _ _ _ => RoundTrip.amoaddW _ _ _ _ _
  | .amoxorW _ _ _ _ _ => RoundTrip.amoxorW _ _ _ _ _
  | .amoandW _ _ _ _ _ => RoundTrip.amoandW _ _ _ _ _
  | .amoorW _ _ _ _ _ => RoundTrip.amoorW _ _ _ _ _
  | .amominW _ _ _ _ _ => RoundTrip.amominW _ _ _ _ _
  | .amomaxW _ _ _ _ _ => RoundTrip.amomaxW _ _ _ _ _
  | .amominuW _ _ _ _ _ => RoundTrip.amominuW _ _ _ _ _
  | .amomaxuW _ _ _ _ _ => RoundTrip.amomaxuW _ _ _ _ _
  | .amoswapD _ _ _ _ _ => RoundTrip.amoswapD _ _ _ _ _
  | .amoaddD _ _ _ _ _ => RoundTrip.amoaddD _ _ _ _ _
  | .amoxorD _ _ _ _ _ => RoundTrip.amoxorD _ _ _ _ _
  | .amoandD _ _ _ _ _ => RoundTrip.amoandD _ _ _ _ _
  | .amoorD _ _ _ _ _ => RoundTrip.amoorD _ _ _ _ _
  | .amominD _ _ _ _ _ => RoundTrip.amominD _ _ _ _ _
  | .amomaxD _ _ _ _ _ => RoundTrip.amomaxD _ _ _ _ _
  | .amominuD _ _ _ _ _ => RoundTrip.amominuD _ _ _ _ _
  | .amomaxuD _ _ _ _ _ => RoundTrip.amomaxuD _ _ _ _ _
  | .csrrw _ _ _ => RoundTrip.csrrw _ _ _
  | .csrrs _ _ _ => RoundTrip.csrrs _ _ _
  | .csrrc _ _ _ => RoundTrip.csrrc _ _ _
  | .csrrwi _ _ _ => RoundTrip.csrrwi _ _ _
  | .csrrsi _ _ _ => RoundTrip.csrrsi _ _ _
  | .csrrci _ _ _ => RoundTrip.csrrci _ _ _
  | .ecall => RoundTrip.ecall
  | .ebreak => RoundTrip.ebreak
  | .uret => RoundTrip.uret
  | .sret => RoundTrip.sret
  | .mret => RoundTrip.mret
  | .wfi => RoundTrip.wfi
  | .sfenceVma _ _ => RoundTrip.sfenceVma _ _
  | .fence _ _ _ _ _ => RoundTrip.fence _ _ _ _ _
  | .fenceI _ _ _ => RoundTrip.fenceI _ _ _
  | .loadFp _ => RoundTrip.loadFp _
  | .storeFp _ => RoundTrip.storeFp _
  | .fmadd _ => RoundTrip.fmadd _
  | .fmsub _ => RoundTrip.fmsub _
  | .fnmsub _ => RoundTrip.fnmsub _
  | .fnmadd _ => RoundTrip.fnmadd _
  | .opFp _ => RoundTrip.opFp _
  | .cIllegal => RoundTrip.cIllegal
  | .cAddi4spn _ _ => RoundTrip.cAddi4spn _ _
  | .cFld _ => RoundTrip.cFld _
  | .cLw _ _ _ => RoundTrip.cLw _ _ _
  | .cLd _ _ _ => RoundTrip.cLd _ _ _
  | .cReservedQ0 _ => RoundTrip.cReservedQ0 _
  | .cFsd _ => RoundTrip.cFsd _
  | .cSw _ _ _ => RoundTrip.cSw _ _ _
  | .cSd _ _ _ => RoundTrip.cSd _ _ _
  | .cNop _ => RoundTrip.cNop _
  | .cAddi _ _ => RoundTrip.cAddi _ _
  | .cAddiw _ _ => RoundTrip.cAddiw _ _
  | .cLi _ _ => RoundTrip.cLi _ _
  | .cAddi16sp _ => RoundTrip.cAddi16sp _
  | .cLui _ _ => RoundTrip.cLui _ _
  | .cSrli _ _ => RoundTrip.cSrli _ _
  | .cSrai _ _ => RoundTrip.cSrai _ _
  | .cAndi _ _ => RoundTrip.cAndi _ _
  | .cSub _ _ => RoundTrip.cSub _ _
  | .cXor _ _ => RoundTrip.cXor _ _
  | .cOr _ _ => RoundTrip.cOr _ _
  | .cAnd _ _ => RoundTrip.cAnd _ _
  | .cSubw _ _ => RoundTrip.cSubw _ _
  | .cAddw _ _ => RoundTrip.cAddw _ _
  | .cReservedQ1 _ _ _ => RoundTrip.cReservedQ1 _ _ _
  | .cJ _ => RoundTrip.cJ _
  | .cBeqz _ _ => RoundTrip.cBeqz _ _
  | .cBnez _ _ => RoundTrip.cBnez _ _
  | .cSlli _ _ => RoundTrip.cSlli _ _
  | .cFldsp _ => RoundTrip.cFldsp _
  | .cLwsp _ _ => RoundTrip.cLwsp _ _
  | .cLdsp _ _ => RoundTrip.cLdsp _ _
  | .cFsdsp _ => RoundTrip.cFsdsp _
  | .cSwsp _ _ => RoundTrip.cSwsp _ _
  | .cSdsp _ _ => RoundTrip.cSdsp _ _
  | .cEbreak => RoundTrip.cEbreak
  | .cJalr _ => RoundTrip.cJalr _
  | .cJr _ => RoundTrip.cJr _
  | .cMv _ _ => RoundTrip.cMv _ _
  | .cAdd _ _ => RoundTrip.cAdd _ _

/-- Settles O1. -/
theorem decodeEncodeRoundTrip : Obligations.DecodeEncodeRoundTrip := decode_encode

end Sys2Proof.Machine
end

section
/-! The encoder against the decoder (spec/30_encoding.md R190 to R216). Each table of the opcode map is followed once:
whatever it answers for some fields is `Exact`, that is a well-formed instruction that the encoder places in the same
fields, or a rejection with the same bits. A row is closed by the law of its format, which places back what was
gathered. -/

namespace Sys2Proof

/-- The answers a table may give for the fields of a word: a well-formed instruction with the word as its encoding, or
an unknown encoding with the word's bits. -/
def Exact32 (f : Fields32) : Except Reject Instr → Prop
  | .ok i => WellFormed i ∧ encode i = .full f.join
  | .error r => r = .unknownEncoding f.join

namespace Exact32

variable {f : Fields32} {i : Instr} {op : BitVec 7} {f3 : BitVec 3}

theorem unknown (f : Fields32) : Exact32 f f.unknown := rfl

theorem of_eq {g : Fields32} (hg : g = f) (hwf : WellFormed i) (henc : encode i = .full g.join) : Exact32 f (.ok i) :=
  ⟨hwf, hg ▸ henc⟩

/-! ### A row: its fixed fields are those the table matched, and its format places back what was gathered -/

theorem of_row {g : Fields32} (hop : f.opcode = op) (hf3 : f.funct3 = f3)
    (hg : g = ⟨f.funct7, f.rs2, f.rs1, f3, f.rd, op⟩) (hwf : WellFormed i) (henc : encode i = .full g.join) :
    Exact32 f (.ok i) :=
  of_eq (by subst hop hf3; exact hg) hwf henc

theorem of_typeR {f7 : BitVec 7} (hop : f.opcode = op) (hf3 : f.funct3 = f3) (hf7 : f.funct7 = f7) (hwf : WellFormed i)
    (henc : encode i = .full (Fields32.typeR op f3 f7 f.rd f.rs1 f.rs2).join) : Exact32 f (.ok i) :=
  of_row hop hf3 (by subst hf7; rfl) hwf henc

theorem of_typeShift64 {f6 : BitVec 6} (hop : f.opcode = op) (hf3 : f.funct3 = f3)
    (hf6 : f.funct7.extractLsb' 1 6 = f6) (hwf : WellFormed i)
    (henc : encode i = .full (Fields32.typeShift64 op f3 f6 f.rd f.rs1 f.shamt6).join) : Exact32 f (.ok i) :=
  of_row hop hf3 (by subst hf6; exact f.typeShift64_shamt6 _ _) hwf henc

theorem of_typeAmo {f5 : BitVec 5} {rs2 : RegIdx} (hop : f.opcode = 0x2F) (hf3 : f.funct3 = f3)
    (hf5 : f.funct7.extractLsb' 2 5 = f5) (hrs2 : f.rs2 = rs2) (hwf : WellFormed i)
    (henc : encode i = .full (Fields32.typeAmo f3 f5 f.rd f.rs1 rs2 (f.funct7.extractLsb' 1 1)
      (f.funct7.extractLsb' 0 1)).join) : Exact32 f (.ok i) :=
  of_row hop hf3 (by subst hf5 hrs2; exact f.typeAmo_fields _ _) hwf henc

/-- A row with all its fields fixed. -/
theorem of_fields {f7 : BitVec 7} {rs2 rs1 rd : RegIdx} (hop : f.opcode = op) (hf3 : f.funct3 = f3)
    (hf7 : f.funct7 = f7) (hrs2 : f.rs2 = rs2) (hrs1 : f.rs1 = rs1) (hrd : f.rd = rd) (hwf : WellFormed i)
    (henc : encode i = .full (Fields32.typeR op f3 f7 rd rs1 rs2).join) : Exact32 f (.ok i) :=
  of_eq (by subst hop hf3 hf7 hrs2 hrs1 hrd; rfl) hwf henc

end Exact32

/-- FENCE: its three fields and the two register fields cut inst[31:20] apart (R192). -/
theorem Fields32.fence_fields (f : Fields32) :
    f.funct7.extractLsb' 3 4 ++ (f.funct7.extractLsb' 0 3 ++ f.rs2.extractLsb' 4 1 : BitVec 4).extractLsb' 1 3 =
      f.funct7 ∧
    (f.funct7.extractLsb' 0 3 ++ f.rs2.extractLsb' 4 1 : BitVec 4).extractLsb' 0 1 ++ f.rs2.extractLsb' 0 4 = f.rs2 := by
  constructor
  all_goals
    apply BitVec.eq_of_getLsbD_eq
    intro i hi
    simp only [BitVec.getLsbD_append, BitVec.getLsbD_extractLsb']
    interval_cases i <;> rfl

/-- The last row of a table over funct3 that lists the other seven. -/
theorem eq_seven_of_ne {v : BitVec 3} (h0 : v ≠ 0) (h1 : v ≠ 1) (h2 : v ≠ 2) (h3 : v ≠ 3) (h4 : v ≠ 4) (h5 : v ≠ 5)
    (h6 : v ≠ 6) : v = 7 := by
  bv_omega

/-! ### The tables of the major opcodes -/

theorem decodeLoad_exact {f : Fields32} (hop : f.opcode = 0x03) : Exact32 f (decodeLoad f) := by
  unfold decodeLoad
  split
  case h_8 => exact .unknown f
  all_goals exact .of_row hop ‹_› (f.typeI_immI _ _) rfl rfl

theorem decodeMiscMem_exact {f : Fields32} (hop : f.opcode = 0x0F) : Exact32 f (decodeMiscMem f) := by
  unfold decodeMiscMem
  split
  case h_1 hf3 =>
    obtain ⟨hf7, hrs2⟩ := f.fence_fields
    exact .of_typeR hop hf3 rfl rfl (by rw [encode, hf7, hrs2]; rfl)
  case h_2 hf3 => exact .of_row hop hf3 (f.typeI_immI _ _) rfl rfl
  case h_3 => exact .unknown f

theorem decodeOpImm_exact {f : Fields32} (hop : f.opcode = 0x13) : Exact32 f (decodeOpImm f) := by
  unfold decodeOpImm
  split
  case h_2 hf3 =>
    split
    case h_1 hf6 => exact .of_typeShift64 hop hf3 hf6 rfl rfl
    case h_2 => exact .unknown f
  case h_6 hf3 =>
    split
    case h_1 hf6 => exact .of_typeShift64 hop hf3 hf6 rfl rfl
    case h_2 hf6 => exact .of_typeShift64 hop hf3 hf6 rfl rfl
    case h_3 => exact .unknown f
  case h_8 h0 h1 h2 h3 h4 h5 h6 => exact .of_row hop (eq_seven_of_ne h0 h1 h2 h3 h4 h5 h6) (f.typeI_immI _ _) rfl rfl
  all_goals exact .of_row hop ‹_› (f.typeI_immI _ _) rfl rfl

theorem decodeOpImm32_exact {f : Fields32} (hop : f.opcode = 0x1B) : Exact32 f (decodeOpImm32 f) := by
  unfold decodeOpImm32
  split
  case h_1 hf3 => exact .of_row hop hf3 (f.typeI_immI _ _) rfl rfl
  case h_2 hf3 hf7 => exact .of_typeR hop hf3 hf7 rfl rfl
  case h_3 hf3 hf7 => exact .of_typeR hop hf3 hf7 rfl rfl
  case h_4 hf3 hf7 => exact .of_typeR hop hf3 hf7 rfl rfl
  case h_5 => exact .unknown f

theorem decodeStore_exact {f : Fields32} (hop : f.opcode = 0x23) : Exact32 f (decodeStore f) := by
  unfold decodeStore
  split
  case h_5 => exact .unknown f
  all_goals exact .of_row hop ‹_› (f.typeS_immS _ _) rfl rfl

/-- The two widths list the same eleven functions; LR has its rs2 field fixed. -/
theorem decodeAmo_exact {f : Fields32} (hop : f.opcode = 0x2F) : Exact32 f (decodeAmo f) := by
  dsimp only [decodeAmo]
  split
  case h_1 hf3 =>
    split
    case h_3 hf5 =>
      split
      case h_1 hrs2 => exact .of_typeAmo hop hf3 hf5 hrs2 rfl rfl
      case h_2 => exact .unknown f
    case h_12 => exact .unknown f
    all_goals exact .of_typeAmo hop hf3 ‹_› rfl rfl rfl
  case h_2 hf3 =>
    split
    case h_3 hf5 =>
      split
      case h_1 hrs2 => exact .of_typeAmo hop hf3 hf5 hrs2 rfl rfl
      case h_2 => exact .unknown f
    case h_12 => exact .unknown f
    all_goals exact .of_typeAmo hop hf3 ‹_› rfl rfl rfl
  case h_3 => exact .unknown f

theorem decodeOp_exact {f : Fields32} (hop : f.opcode = 0x33) : Exact32 f (decodeOp f) := by
  unfold decodeOp
  split
  case h_1 hf7 =>
    split
    case h_8 h0 h1 h2 h3 h4 h5 h6 => exact .of_typeR hop (eq_seven_of_ne h0 h1 h2 h3 h4 h5 h6) hf7 rfl rfl
    all_goals exact .of_typeR hop ‹_› hf7 rfl rfl
  case h_2 hf7 =>
    split
    case h_1 hf3 => exact .of_typeR hop hf3 hf7 rfl rfl
    case h_2 hf3 => exact .of_typeR hop hf3 hf7 rfl rfl
    case h_3 => exact .unknown f
  case h_3 hf7 =>
    split
    case h_8 h0 h1 h2 h3 h4 h5 h6 => exact .of_typeR hop (eq_seven_of_ne h0 h1 h2 h3 h4 h5 h6) hf7 rfl rfl
    all_goals exact .of_typeR hop ‹_› hf7 rfl rfl
  case h_4 => exact .unknown f

theorem decodeOp32_exact {f : Fields32} (hop : f.opcode = 0x3B) : Exact32 f (decodeOp32 f) := by
  unfold decodeOp32
  split
  case h_11 => exact .unknown f
  all_goals exact .of_typeR hop ‹_› ‹_› rfl rfl

theorem decodeBranch_exact {f : Fields32} (hop : f.opcode = 0x63) : Exact32 f (decodeBranch f) := by
  unfold decodeBranch
  split
  case h_7 => exact .unknown f
  all_goals exact .of_row hop ‹_› (f.typeB_immB _ _) rfl rfl

theorem decodePriv_exact {f : Fields32} (hop : f.opcode = 0x73) (hf3 : f.funct3 = 0) : Exact32 f (decodePriv f) := by
  unfold decodePriv
  split
  case h_7 hf7 hrd => exact .of_fields hop hf3 hf7 rfl rfl hrd rfl rfl
  case h_8 => exact .unknown f
  all_goals
    rename_i hf7 hrs2 hrs1 hrd
    exact .of_fields hop hf3 hf7 hrs2 hrs1 hrd rfl rfl

theorem decodeSystem_exact {f : Fields32} (hop : f.opcode = 0x73) : Exact32 f (decodeSystem f) := by
  unfold decodeSystem
  split
  case h_1 hf3 => exact decodePriv_exact hop hf3
  case h_8 => exact .unknown f
  all_goals exact .of_row hop ‹_› (f.typeI_immI _ _) rfl rfl

/-! ### The opcode map -/

theorem decodeFields32_exact (f : Fields32) : Exact32 f (decodeFields32 f) := by
  unfold decodeFields32
  split
  case h_1 hop => exact decodeLoad_exact hop
  case h_2 hop => exact decodeMiscMem_exact hop
  case h_3 hop => exact decodeOpImm_exact hop
  case h_4 hop => exact .of_row hop rfl (f.typeU_immU _) rfl rfl
  case h_5 hop => exact decodeOpImm32_exact hop
  case h_6 hop => exact decodeStore_exact hop
  case h_7 hop => exact decodeAmo_exact hop
  case h_8 hop => exact decodeOp_exact hop
  case h_9 hop => exact .of_row hop rfl (f.typeU_immU _) rfl rfl
  case h_10 hop => exact decodeOp32_exact hop
  case h_11 hop => exact decodeBranch_exact hop
  case h_12 hop =>
    split
    case h_1 hf3 => exact .of_row hop hf3 (f.typeI_immI _ _) rfl rfl
    case h_2 => exact .unknown f
  case h_13 hop => exact .of_row hop rfl (f.typeJ_immJ _) rfl rfl
  case h_14 hop => exact decodeSystem_exact hop
  case h_22 => exact .unknown f
  all_goals exact .of_row ‹_› rfl (f.typeAny_above _) rfl rfl

theorem decode_full_exact (w : BitVec 32) : Exact32 (.split w) (decode (.full w)) := decodeFields32_exact _

end Sys2Proof
end

section
/-! The encoder against the decoder, 16-bit quadrants (spec/30_encoding.md R210 to R216), and from both widths the
statements about the decoder: no bit is dropped, and every rejection has the bits it was given. -/

namespace Sys2Proof

/-- The answers a quadrant may give for the fields of a parcel: a well-formed instruction with the parcel as its
encoding, or a reserved form. -/
def Exact16 (f : Fields16) : Except Reject Instr → Prop
  | .ok i => WellFormed i ∧ encode i = .half f.join
  | .error r => r = .reservedCompressed

namespace Exact16

variable {f : Fields16} {i : Instr} {q : BitVec 2} {f3 : BitVec 3}

theorem reserved (f : Fields16) : Exact16 f (.error .reservedCompressed) := rfl

/-- A row: its fixed fields are those the quadrant matched, and its format places back what was gathered. -/
theorem of_row {g : Fields16} (hq : f.quadrant = q) (hf3 : f.funct3 = f3)
    (hg : g = ⟨f3, f.b12, f.b11_10, f.b9_7, f.b6_5, f.b4_2, q⟩) (hwf : WellFormed i) (henc : encode i = .half g.join) :
    Exact16 f (.ok i) :=
  ⟨hwf, by rw [henc, hg, ← hq, ← hf3]⟩

/-- A row of quadrant 1 with two registers. -/
theorem of_typeCA {b : BitVec 1} {f2 : BitVec 2} (hq : f.quadrant = 1) (hf3 : f.funct3 = 4) (hb11 : f.b11_10 = 3)
    (hb12 : f.b12 = b) (hf2 : f.b6_5 = f2) (hwf : WellFormed i)
    (henc : encode i = .half (Fields16.typeCA b f2 f.b9_7 f.b4_2).join) : Exact16 f (.ok i) :=
  of_row hq hf3 (by subst hb12 hf2; rw [hb11]; rfl) hwf henc

/-- A row of quadrant 2 with two registers. -/
theorem of_typeCR {b : BitVec 1} {r r2 : RegIdx} (hq : f.quadrant = 2) (hf3 : f.funct3 = 4) (hb12 : f.b12 = b)
    (hr : f.r = r) (hr2 : f.r2 = r2) (hwf : WellFormed i) (henc : encode i = .half (Fields16.typeCR b r r2).join) :
    Exact16 f (.ok i) :=
  of_row hq hf3 (by subst hb12 hr hr2; exact f.typeCR_regs _) hwf henc

end Exact16

/-! ### The quadrants -/

theorem decodeQuadrant0_exact {f : Fields16} (hq : f.quadrant = 0) : Exact16 f (decodeQuadrant0 f) := by
  unfold decodeQuadrant0
  split
  case h_1 hf3 =>
    split
    case isTrue himm =>
      split
      case isTrue hb =>
        refine .of_row hq hf3 (f.typeSpn_immSpn) rfl ?_
        rw [himm, hb]
        rfl
      case isFalse => exact .reserved f
    case isFalse himm => exact .of_row hq hf3 f.typeSpn_immSpn (decide_eq_true himm) rfl
  case h_2 hf3 => exact .of_row hq hf3 (f.typeAny_above _ _) rfl rfl
  case h_3 hf3 => exact .of_row hq hf3 (f.typeCWord_immWord _) rfl rfl
  case h_4 hf3 => exact .of_row hq hf3 (f.typeCDouble_immDouble _) rfl rfl
  case h_5 hf3 => exact .of_row hq hf3 (f.typeAny_above _ _) rfl rfl
  case h_6 hf3 => exact .of_row hq hf3 (f.typeAny_above _ _) rfl rfl
  case h_7 hf3 => exact .of_row hq hf3 (f.typeCWord_immWord _) rfl rfl
  case h_8 h0 h1 h2 h3 h4 h5 h6 =>
    exact .of_row hq (eq_seven_of_ne h0 h1 h2 h3 h4 h5 h6) (f.typeCDouble_immDouble _) rfl rfl

/-- A two-bit field that is none of the values listed before the last. -/
theorem eq_three_of_ne {v : BitVec 2} (h0 : v ≠ 0) (h1 : v ≠ 1) (h2 : v ≠ 2) : v = 3 := by
  bv_omega

theorem eq_one_of_ne {v : BitVec 1} (h0 : v ≠ 0) : v = 1 := by
  bv_omega

/-- The unassigned space keeps inst[5]; its inst[6] is 1 (R462). -/
theorem append_low_of_ne {v : BitVec 2} (h0 : v ≠ 0) (h1 : v ≠ 1) : v = 1#1 ++ v.extractLsb' 0 1 := by
  revert v
  decide

theorem decodeQuadrant1Alu_exact {f : Fields16} (hq : f.quadrant = 1) (hf3 : f.funct3 = 4) :
    Exact16 f (decodeQuadrant1Alu f) := by
  unfold decodeQuadrant1Alu
  split
  case h_1 hb => exact .of_row hq hf3 (by rw [hb]; exact f.typeCBImm_imm6 _) rfl rfl
  case h_2 hb => exact .of_row hq hf3 (by rw [hb]; exact f.typeCBImm_imm6 _) rfl rfl
  case h_3 hb => exact .of_row hq hf3 (by rw [hb]; exact f.typeCBImm_imm6 _) rfl rfl
  case h_4 h0 h1 h2 =>
    have hb := eq_three_of_ne h0 h1 h2
    split
    case h_1 hb12 hf2 => exact .of_typeCA hq hf3 hb hb12 hf2 rfl rfl
    case h_2 hb12 hf2 => exact .of_typeCA hq hf3 hb hb12 hf2 rfl rfl
    case h_3 hb12 hf2 => exact .of_typeCA hq hf3 hb hb12 hf2 rfl rfl
    case h_4 hb12 g0 g1 g2 => exact .of_typeCA hq hf3 hb hb12 (eq_three_of_ne g0 g1 g2) rfl rfl
    case h_5 hf2 hb12 => exact .of_typeCA hq hf3 hb (eq_one_of_ne hb12) hf2 rfl rfl
    case h_6 hf2 hb12 => exact .of_typeCA hq hf3 hb (eq_one_of_ne hb12) hf2 rfl rfl
    case h_7 hb12 g0 g1 _ _ _ =>
      exact .of_typeCA hq hf3 hb (eq_one_of_ne hb12) (append_low_of_ne g0 g1) rfl rfl

theorem decodeQuadrant1_exact {f : Fields16} (hq : f.quadrant = 1) : Exact16 f (decodeQuadrant1 f) := by
  unfold decodeQuadrant1
  split
  case h_1 hf3 =>
    split
    case isTrue hr => exact .of_row hq hf3 (f.typeCI_imm6 _ _) rfl (by rw [hr]; rfl)
    case isFalse hr => exact .of_row hq hf3 (f.typeCI_imm6 _ _) (decide_eq_true hr) rfl
  case h_2 hf3 =>
    split
    case isTrue => exact .reserved f
    case isFalse hr => exact .of_row hq hf3 (f.typeCI_imm6 _ _) (decide_eq_true hr) rfl
  case h_3 hf3 => exact .of_row hq hf3 (f.typeCI_imm6 _ _) rfl rfl
  case h_4 hf3 =>
    split
    case isTrue hr =>
      split
      case isTrue => exact .reserved f
      case isFalse himm => exact .of_row hq hf3 (f.type16sp_imm16sp hr) (decide_eq_true himm) rfl
    case isFalse hr =>
      split
      case isTrue => exact .reserved f
      case isFalse himm =>
        exact .of_row hq hf3 (f.typeCI_imm6 _ _) (Bool.and_eq_true_iff.2 ⟨decide_eq_true hr, decide_eq_true himm⟩) rfl
  case h_5 hf3 => exact decodeQuadrant1Alu_exact hq hf3
  case h_6 hf3 => exact .of_row hq hf3 f.typeCJ_immJump rfl rfl
  case h_7 hf3 => exact .of_row hq hf3 (f.typeCBranch_immBranch _) rfl rfl
  case h_8 h0 h1 h2 h3 h4 h5 h6 =>
    exact .of_row hq (eq_seven_of_ne h0 h1 h2 h3 h4 h5 h6) (f.typeCBranch_immBranch _) rfl rfl

theorem decodeQuadrant2Reg_exact {f : Fields16} (hq : f.quadrant = 2) (hf3 : f.funct3 = 4) :
    Exact16 f (decodeQuadrant2Reg f) := by
  unfold decodeQuadrant2Reg
  split
  case isTrue hr2 =>
    split
    case h_1 hb12 =>
      split
      case isTrue => exact .reserved f
      case isFalse hr => exact .of_typeCR hq hf3 hb12 rfl hr2 (decide_eq_true hr) rfl
    case h_2 hb12 =>
      split
      case isTrue hr => exact .of_typeCR hq hf3 (eq_one_of_ne hb12) hr hr2 rfl rfl
      case isFalse hr => exact .of_typeCR hq hf3 (eq_one_of_ne hb12) rfl hr2 (decide_eq_true hr) rfl
  case isFalse hr2 =>
    split
    case h_1 hb12 => exact .of_typeCR hq hf3 hb12 rfl rfl (decide_eq_true hr2) rfl
    case h_2 hb12 => exact .of_typeCR hq hf3 (eq_one_of_ne hb12) rfl rfl (decide_eq_true hr2) rfl

theorem decodeQuadrant2_exact {f : Fields16} (hq : f.quadrant = 2) : Exact16 f (decodeQuadrant2 f) := by
  unfold decodeQuadrant2
  split
  case h_1 hf3 => exact .of_row hq hf3 (f.typeCI_imm6 _ _) rfl rfl
  case h_2 hf3 => exact .of_row hq hf3 (f.typeAny_above _ _) rfl rfl
  case h_3 hf3 =>
    split
    case isTrue => exact .reserved f
    case isFalse hr => exact .of_row hq hf3 f.typeLwsp_immLwsp (decide_eq_true hr) rfl
  case h_4 hf3 =>
    split
    case isTrue => exact .reserved f
    case isFalse hr => exact .of_row hq hf3 f.typeLdsp_immLdsp (decide_eq_true hr) rfl
  case h_5 hf3 => exact decodeQuadrant2Reg_exact hq hf3
  case h_6 hf3 => exact .of_row hq hf3 (f.typeAny_above _ _) rfl rfl
  case h_7 hf3 => exact .of_row hq hf3 f.typeSwsp_immSwsp rfl rfl
  case h_8 h0 h1 h2 h3 h4 h5 h6 =>
    exact .of_row hq (eq_seven_of_ne h0 h1 h2 h3 h4 h5 h6) f.typeSdsp_immSdsp rfl rfl

/-- A parcel of the three compressed quadrants is never an unknown encoding: the unassigned spaces are rows (R210). -/
theorem decodeFields16_exact {f : Fields16} (hq : f.quadrant ≠ 3) : Exact16 f (decodeFields16 f) := by
  unfold decodeFields16
  split
  case h_1 h => exact decodeQuadrant0_exact h
  case h_2 h => exact decodeQuadrant1_exact h
  case h_3 h => exact decodeQuadrant2_exact h
  case h_4 h0 h1 h2 => exact absurd (eq_three_of_ne h0 h1 h2) hq

theorem decodeFields16_of_quadrant_three {f : Fields16} (hq : f.quadrant = 3) : decodeFields16 f = f.unknown := by
  rw [decodeFields16, hq]
  rfl

theorem decode_half_exact {p : BitVec 16} (hq : (Fields16.split p).quadrant ≠ 3) :
    Exact16 (.split p) (decode (.half p)) := decodeFields16_exact hq

theorem decode_half_of_quadrant_three {p : BitVec 16} (hq : (Fields16.split p).quadrant = 3) :
    decode (.half p) = .error (.unknownEncoding (p.setWidth 32)) := by
  rw [← Fields16.join_split p]
  exact (congrArg decodeFields16 (Fields16.split_join _)).trans (decodeFields16_of_quadrant_three hq)

namespace Machine

/-- The two readings of inst[1:0] of a parcel: the column of its fields, and the test of R170. -/
theorem isLong_iff_quadrant (p : BitVec 16) : isLong p = true ↔ (Fields16.split p).quadrant = 3 := beq_iff_eq

/-- A decoded parcel is of a compressed quadrant. -/
theorem isLong_of_decode_half {p : BitVec 16} {i : Instr} (h : decode (.half p) = .ok i) : isLong p = false := by
  rw [← Bool.not_eq_true, isLong_iff_quadrant]
  intro hq
  have hunknown := decode_half_of_quadrant_three hq
  rw [h] at hunknown
  cases hunknown

/-- Settles O2: what a table answers is exact, in either width. -/
theorem encodeDecodeRoundTrip : Obligations.EncodeDecodeRoundTrip := by
  intro b i h
  cases b with
  | full w =>
    have hexact := decode_full_exact w
    rw [h] at hexact
    obtain ⟨hwf, henc⟩ := hexact
    exact ⟨hwf, by rw [henc, Fields32.join_split]⟩
  | half p =>
    have hq : (Fields16.split p).quadrant ≠ 3 := fun hq => by
      rw [← isLong_iff_quadrant, isLong_of_decode_half h] at hq
      cases hq
    have hexact := decode_half_exact hq
    rw [h] at hexact
    obtain ⟨hwf, henc⟩ := hexact
    exact ⟨hwf, by rw [henc, Fields16.join_split]⟩

end Machine

end Sys2Proof
end

section
/-! What every instruction and every step keeps (R12, R36, R39, R419, R503, R505). An instruction is taken through the
cases of `Effect` once for each kind of state; a step is the interrupt check, a fetch and an instruction, or the trap
of a fetch (`step_next`). -/

namespace Sys2Proof.Machine

open Sys2Proof.Claims

/-! ### What no update of the state touches, and that memory stays canonical -/

/-- `t` holds the fixed state of `s`, and its memory is canonical where that of `s` is. -/
structure Kept (s t : State) : Prop where
  fixed : SameFixed s t
  memWf : Memory.wf s.mem = true → Memory.wf t.mem = true

namespace Kept

theorem refl (s : State) : Kept s s := ⟨⟨rfl, rfl, rfl, rfl, rfl⟩, id⟩

theorem trans {s t u : State} (h : Kept s t) (k : Kept t u) : Kept s u :=
  ⟨⟨k.fixed.fregs.trans h.fixed.fregs, k.fixed.slots.trans h.fixed.slots, k.fixed.plat.trans h.fixed.plat,
    k.fixed.rom.trans h.fixed.rom, k.fixed.halted.trans h.fixed.halted⟩, k.memWf ∘ h.memWf⟩

theorem of_memOnly {s t : State} (h : MemOnly s t) : Kept s t :=
  ⟨⟨h.fregs, congrArg CsrFile.others h.csr, h.plat, h.rom, h.halted⟩, h.wf⟩

theorem setX_setPc (s : State) (rd : RegIdx) (v pc : Word) : Kept s ((s.setX rd v).setPc pc) :=
  ⟨⟨by simp, by simp, by simp, by simp, by simp⟩, by simp⟩

theorem setResv (s : State) (r : Option Reservation) : Kept s (s.setResv r) := ⟨⟨rfl, rfl, rfl, rfl, rfl⟩, id⟩

theorem drew (s : State) : Kept s s.drew := ⟨⟨rfl, rfl, rfl, rfl, rfl⟩, id⟩

theorem setCsr (s : State) (n : CsrName) (v : Word) : Kept s (s.setCsr n v) :=
  ⟨⟨rfl, CsrFile.set_others _ n v, rfl, rfl, rfl⟩, id⟩

theorem trapEnter (epc cause tval : Word) (s : State) : Kept s (trapEnter epc cause tval s) :=
  ⟨⟨by simp, by simp, by simp, by simp, by simp⟩, by simp⟩

theorem handleInterrupt (s : State) : Kept s (handleInterrupt s) :=
  ⟨⟨by simp, by simp, by simp, by simp, by simp⟩, by simp⟩

theorem inv {s t : State} (h : Kept s t) (hs : s.Inv) : t.Inv where
  memWf := h.memWf hs.memWf
  romWf := h.fixed.rom ▸ hs.romWf
  csrWf := by rw [CsrFile.wf, h.fixed.slots]; exact hs.csrWf
  running := h.fixed.halted.trans hs.running

end Kept

/-! ### An instruction -/

theorem Effect.kept {i : Instr} {s t : State} (h : Effect i s t) : Kept s t := by
  cases h with
  | goes rd v pc _ ht => exact ht ▸ .setX_setPc s rd v pc
  | loads rd v pc u _ hm _ ht => exact ht ▸ (Kept.of_memOnly hm).trans (.setX_setPc u rd v pc)
  | writes rd v pc u _ _ hm ht => exact ht ▸ (Kept.of_memOnly hm).trans (.setX_setPc u rd v pc)
  | reserves rd v pc r u _ _ hm _ ht =>
    exact ht ▸ ((Kept.of_memOnly hm).trans (.setResv u _)).trans (.setX_setPc _ rd v pc)
  | releases rd v pc u _ _ _ hm ht =>
    exact ht ▸ ((Kept.of_memOnly hm).trans (.setResv u _)).trans (.setX_setPc _ rd v pc)
  | csr a rd v pc u _ _ hu ht =>
    have hsu : Kept s u := by
      rcases hu with rfl | rfl | ⟨n, w, -, -, rfl⟩
      · exact .refl u
      · exact .drew s
      · exact .setCsr s n w
    exact ht ▸ hsu.trans (.setX_setPc u rd v pc)
  | csrIllegal u hu ht =>
    have hsu : Kept s u := by
      rcases hu with rfl | rfl
      · exact .refl u
      · exact .drew s
    exact ht ▸ hsu.trans (.trapEnter _ _ _ u)
  | traps h =>
    obtain ⟨e, tval, u, hm, -, rfl⟩ := h
    exact (Kept.of_memOnly hm).trans (.trapEnter _ _ _ u)
  | sret _ _ ht => exact ht ▸ ⟨⟨rfl, rfl, rfl, rfl, rfl⟩, id⟩
  | mret p _ _ ht => exact ht ▸ ⟨⟨rfl, rfl, rfl, rfl, rfl⟩, id⟩

/-- An instruction takes no sample of the interrupt inputs (R520). -/
theorem Effect.irqInputs {i : Instr} {s t : State} (h : Effect i s t) : t.irqInputs = s.irqInputs := by
  cases h with
  | goes rd v pc _ ht => simp [ht]
  | loads rd v pc u _ hm _ ht => simp [ht, hm.irqInputs]
  | writes rd v pc u _ _ hm ht => simp [ht, hm.irqInputs]
  | reserves rd v pc r u _ _ hm _ ht => simp [ht, hm.irqInputs]
  | releases rd v pc u _ _ _ hm ht => simp [ht, hm.irqInputs]
  | csr a rd v pc u _ _ hu ht => rcases hu with rfl | rfl | ⟨n, w, -, -, rfl⟩ <;> simp [ht]
  | csrIllegal u hu ht => rcases hu with rfl | rfl <;> simp [ht]
  | traps h =>
    obtain ⟨e, tval, u, hm, -, rfl⟩ := h
    simp [hm.irqInputs]
  | sret _ _ ht => exact ht ▸ rfl
  | mret p _ _ ht => exact ht ▸ rfl

/-! ### A step -/

/-- A step keeps the fixed state, and consumes one sample of the interrupt inputs. -/
theorem step_kept {s t : State} (h : step s = .next t) : Kept s t ∧ t.irqInputs = s.irqInputs.tail := by
  obtain ⟨-, ⟨bits, v, i, -, hm, -, hexec⟩ | ⟨e, tval, v, -, hm, rfl⟩⟩ := step_next h
  · have heffect := exec_next hexec
    exact ⟨((Kept.handleInterrupt s).trans (.of_memOnly hm)).trans heffect.kept,
      by rw [heffect.irqInputs, hm.irqInputs, handleInterrupt_irqInputs]⟩
  · exact ⟨((Kept.handleInterrupt s).trans (.of_memOnly hm)).trans (.trapEnter _ _ _ v),
      by rw [trapEnter_irqInputs, hm.irqInputs, handleInterrupt_irqInputs]⟩

/-- Settles O54: the invariant speaks of what a step keeps. -/
theorem invariantKept : Obligations.InvariantKept :=
  fun _ _ hs h => (step_kept h).1.inv hs

/-- Settles O55. -/
theorem fixedStateKept : Obligations.FixedStateKept :=
  fun _ _ h => ⟨(step_kept h).1.fixed, (step_kept h).2⟩

/-- Settles O53: nothing is listed after reset. -/
theorem invariantAtReset : Obligations.InvariantAtReset :=
  ⟨Memory.wf_nil, Memory.wf_nil, CsrFile.zero_wf, rfl⟩

/-! ### Registers, memory and the reservation -/

theorem getX_of_not_dest {i : Instr} {r rd : RegIdx} (hr : dest i ≠ some r)
    (hd : dest i = some rd ∨ (rd = 0 ∧ dest i = none)) (s : State) (v pc : Word) :
    ((s.setX rd v).setPc pc).getX r = s.getX r := by
  rw [State.getX_setPc]
  rcases hd with hd | ⟨rfl, -⟩
  · exact State.getX_setX_other s rd r v fun hrd => hr (hrd ▸ hd)
  · rw [setX_none]

/-- Only the destination register changes (R230). -/
theorem Effect.getX {i : Instr} {s t : State} (h : Effect i s t) {r : RegIdx} (hr : dest i ≠ some r) :
    t.getX r = s.getX r := by
  cases h with
  | goes rd v pc hd ht => rw [ht, getX_of_not_dest hr hd]
  | loads rd v pc u hd hm _ ht => rw [ht, getX_of_not_dest hr (.inl hd), hm.getX]
  | writes rd v pc u hd _ hm ht => rw [ht, getX_of_not_dest hr hd, hm.getX]
  | reserves rd v pc _ u hd _ hm _ ht => rw [ht, getX_of_not_dest hr (.inl hd), State.getX_setResv, hm.getX]
  | releases rd v pc u hd _ _ hm ht => rw [ht, getX_of_not_dest hr (.inl hd), State.getX_setResv, hm.getX]
  | csr a rd v pc u _ hd hu ht =>
    rw [ht, getX_of_not_dest hr (.inl hd)]
    rcases hu with rfl | rfl | ⟨n, w, -, -, rfl⟩ <;> rfl
  | csrIllegal u hu ht =>
    rw [ht, trapEnter_getX]
    rcases hu with rfl | rfl <;> rfl
  | traps h =>
    obtain ⟨e, tval, u, hm, -, rfl⟩ := h
    rw [trapEnter_getX, hm.getX]
  | sret _ _ ht => rw [ht]; rfl
  | mret p _ _ ht => rw [ht]; rfl

/-- Settles O57: every other access leaves the state as it was where the map is described, and nothing else touches
memory. -/
theorem memoryFrame : Obligations.MemoryFrame := by
  intro i s t hmap hexec hnw
  cases exec_next hexec with
  | goes rd v pc _ ht => simp [ht]
  | loads rd v pc u _ _ hq ht => simp [ht, hq hmap]
  | writes _ _ _ _ _ hw => rw [hnw] at hw; cases hw
  | reserves rd v pc r u _ _ _ hq ht => simp [ht, hq hmap]
  | releases _ _ _ _ _ _ hw => rw [hnw] at hw; cases hw
  | csr a rd v pc u _ _ hu ht => rcases hu with rfl | rfl | ⟨n, w, -, -, rfl⟩ <;> simp [ht]
  | csrIllegal u hu ht => rcases hu with rfl | rfl <;> simp [ht]
  | traps h =>
    obtain ⟨e, tval, u, -, hq, rfl⟩ := h
    rw [trapEnter_mem, hq hmap]
  | sret _ _ ht => rw [ht]; rfl
  | mret p _ _ ht => rw [ht]; rfl

/-- Settles O58. -/
theorem reservationFrame : Obligations.ReservationFrame := by
  intro i s t hexec
  cases exec_next hexec with
  | goes rd v pc _ ht => exact .inl (by simp [ht])
  | loads rd v pc u _ hm _ ht => exact .inl (by simp [ht, hm.resv])
  | writes rd v pc u _ _ hm ht => exact .inl (by simp [ht, hm.resv])
  | reserves rd v pc r u _ hl _ _ ht => exact .inr (.inl ⟨hl, by simp [ht]⟩)
  | releases rd v pc u _ hs _ _ ht => exact .inr (.inr ⟨hs, by simp [ht]⟩)
  | csr a rd v pc u _ _ hu ht => exact .inl (by rcases hu with rfl | rfl | ⟨n, w, -, -, rfl⟩ <;> simp [ht])
  | csrIllegal u hu ht => exact .inl (by rcases hu with rfl | rfl <;> simp [ht])
  | traps h =>
    obtain ⟨e, tval, u, hm, -, rfl⟩ := h
    exact .inl (by rw [trapEnter_resv, hm.resv])
  | sret _ _ ht => exact .inl (by rw [ht]; rfl)
  | mret p _ _ ht => exact .inl (by rw [ht]; rfl)

/-! ### The privilege level and the CSRs -/

/-- The table of R50, as the statements list it and as the model looks it up. -/
theorem mem_storedTable_iff {a : CsrNum} {n : CsrName} : (a, n) ∈ storedTable ↔ CsrName.ofNumber a = some n := by
  constructor
  · have hall : ∀ p ∈ storedTable, CsrName.ofNumber p.1 = some p.2 := by decide
    exact fun h => hall _ h
  · intro h
    rw [← CsrName.number_ofNumber h]
    cases n <;> decide

/-- No stored CSR is open to User mode (R72). -/
theorem user_lt_csrPrivBits (n : CsrName) : Priv.user.code < csrPrivBits n.number := by
  cases n <;> decide

/-- `t` is the trap entry of an exception of an instruction of `s`, with its own pc saved. -/
def TrapOf (s t : State) : Prop :=
  ∃ (e : Exc) (tval : Word) (u : State), u.csr = s.csr ∧ u.priv = s.priv ∧ u.regs = s.regs ∧ u.resv = s.resv ∧
    t = trapEnter s.pc e.cause tval u

/-- How the level and the CSRs come out of an instruction: kept, with one CSR written that the level may access, by a
trap entry, or by a return. -/
inductive Control (i : Instr) (s t : State) : Prop where
  | kept (hp : t.priv = s.priv) (hc : t.csr = s.csr)
  | write (a : CsrNum) (n : CsrName) (v : Word) (ha : csrOf i = some a) (hn : CsrName.ofNumber a = some n)
      (hl : ¬ s.priv.code < csrPrivBits a) (hp : t.priv = s.priv) (hc : t.csr = s.csr.set n v)
  | trap (h : TrapOf s t)
  | sret (hi : i = .sret) (hp : s.priv ≠ .user) (hr : t.regs = s.regs) (hm : t.mem = s.mem)
  | mret (hi : i = .mret) (hp : s.priv = .machine) (hr : t.regs = s.regs) (hm : t.mem = s.mem)

theorem Effect.control {i : Instr} {s t : State} (h : Effect i s t) : Control i s t := by
  cases h with
  | goes rd v pc _ ht => exact .kept (by simp [ht]) (by simp [ht])
  | loads rd v pc u _ hm _ ht => exact .kept (by simp [ht, hm.priv]) (by simp [ht, hm.csr])
  | writes rd v pc u _ _ hm ht => exact .kept (by simp [ht, hm.priv]) (by simp [ht, hm.csr])
  | reserves rd v pc r u _ _ hm _ ht => exact .kept (by simp [ht, hm.priv]) (by simp [ht, hm.csr])
  | releases rd v pc u _ _ _ hm ht => exact .kept (by simp [ht, hm.priv]) (by simp [ht, hm.csr])
  | csr a rd v pc u ha _ hu ht =>
    rcases hu with rfl | rfl | ⟨n, w, hn, hl, rfl⟩
    · exact .kept (by simp [ht]) (by simp [ht])
    · exact .kept (by simp [ht]) (by simp [ht])
    · exact .write a n w ha hn hl (by simp [ht]) (by simp [ht])
  | csrIllegal u hu ht =>
    have hsame : u.csr = s.csr ∧ u.priv = s.priv ∧ u.regs = s.regs ∧ u.resv = s.resv := by
      rcases hu with rfl | rfl <;> exact ⟨rfl, rfl, rfl, rfl⟩
    obtain ⟨hc, hp, hr, hv⟩ := hsame
    exact .trap ⟨.illegalInstruction, 0, u, hc, hp, hr, hv, ht⟩
  | traps h =>
    obtain ⟨e, tval, u, hm, -, ht⟩ := h
    exact .trap ⟨e, tval, u, hm.csr, hm.priv, hm.regs, hm.resv, ht⟩
  | sret hi hp ht => exact .sret hi hp (by rw [ht]; rfl) (by rw [ht]; rfl)
  | mret p hi hp ht => exact .mret hi hp (by rw [ht]; rfl) (by rw [ht]; rfl)

/-- Settles O59. -/
theorem controlStateFrame : Obligations.ControlStateFrame := by
  intro i s t hexec
  cases (exec_next hexec).control with
  | kept hp hc => exact .inl ⟨hp, hc⟩
  | write a n v ha hn _ hp hc => exact .inr (.inl ⟨hp, a, n, v, ha, mem_storedTable_iff.2 hn, hc⟩)
  | trap h => exact .inr (.inr (.inl h))
  | sret hi hp hr hm => exact .inr (.inr (.inr (.inl ⟨hi, hp, hr, hm⟩)))
  | mret hi hp hr hm => exact .inr (.inr (.inr (.inr ⟨hi, hp, hr, hm⟩)))

/-- Settles O56: the registers by `Effect.getX`, the level and the CSRs as O59 says; a trap entry keeps the file. -/
theorem registerFrame : Obligations.RegisterFrame := by
  intro i s t hexec
  have heffect := exec_next hexec
  refine ⟨fun r hr => heffect.getX hr, t.getX_zero, ?_⟩
  cases heffect.control with
  | kept hp hc => exact .inr (.inl ⟨hp, .inl hc⟩)
  | write a n v ha hn _ hp hc => exact .inr (.inl ⟨hp, .inr ⟨a, n, v, ha, mem_storedTable_iff.2 hn, hc⟩⟩)
  | trap h =>
    obtain ⟨e, tval, u, hc, hp, hr, -, ht⟩ := h
    exact .inl ⟨by rw [ht, trapEnter_regs, hr], e, tval, u, hc, hp, ht⟩
  | sret hi _ hr _ => exact .inr (.inr ⟨hr, .inl hi⟩)
  | mret hi _ hr _ => exact .inr (.inr ⟨hr, .inr hi⟩)

/-- Settles O60: in User mode a CSR write would need a stored CSR that level may access, and a return a higher level. -/
theorem userModeConfined : Obligations.UserModeConfined := by
  intro i s t huser hexec
  cases (exec_next hexec).control with
  | kept hp hc => exact .inl ⟨hp.trans huser, hc⟩
  | write a n v _ hn hl =>
    rw [huser, ← CsrName.number_ofNumber hn] at hl
    exact absurd (user_lt_csrPrivBits n) hl
  | trap h =>
    obtain ⟨e, tval, u, hc, hp, -, -, ht⟩ := h
    exact .inr ⟨e, tval, u, hc, hp.trans huser, ht⟩
  | sret _ hp => exact absurd huser hp
  | mret _ hp => rw [huser] at hp; cases hp

end Sys2Proof.Machine
end

section
/-! The decoder on bytes, its rejections, and fixed words (spec/30_encoding.md R33, R110, R170, R205, R216). -/

namespace Sys2Proof

/-! ### Bytes (R110, R142, R170) -/

namespace Machine

/-- Every opcode of the map ends in 11 (R170). -/
theorem opcode_low_of_decode {f : Fields32} {i : Instr} (h : decodeFields32 f = .ok i) :
    f.opcode.extractLsb' 0 2 = 3 := by
  unfold decodeFields32 at h
  split at h
  case h_22 => cases h
  all_goals
    rename_i hop
    rw [hop]
    rfl

theorem isLong_of_decode_full {w : BitVec 32} {i : Instr} (h : decode (.full w) = .ok i) :
    isLong (w.extractLsb' 0 16) = true := by
  have hlow : (w.extractLsb' 0 16).extractLsb' 0 2 = (Fields32.split w).opcode.extractLsb' 0 2 := by
    apply BitVec.eq_of_getLsbD_eq
    intro k hk
    simp only [Fields32.split, BitVec.getLsbD_extractLsb']
    interval_cases k <;> rfl
  rw [isLong, hlow, opcode_low_of_decode h]
  rfl

/-- The two bytes of a parcel, the lower first, join to the parcel. -/
theorem append_bytes (w : BitVec 32) (k : Nat) :
    w.extractLsb' (k + 8) 8 ++ w.extractLsb' k 8 = w.extractLsb' k 16 :=
  BitVec.extractLsb'_append_extractLsb'_eq_extractLsb' rfl

theorem decodeBytes_half {p : BitVec 16} {i : Instr} (rest : List Byte) (h : decode (.half p) = .ok i) :
    decodeBytes ((InstBits.half p).bytes ++ rest) = .ok (i, rest) := by
  have hjoin : p.extractLsb' 8 8 ++ p.extractLsb' 0 8 = p :=
    (BitVec.extractLsb'_append_extractLsb'_eq_extractLsb' rfl).trans BitVec.extractLsb'_eq_self
  simp only [InstBits.bytes, List.cons_append, List.nil_append, decodeBytes, hjoin, isLong_of_decode_half h, h, headOf]
  rfl

theorem decodeBytes_full {w : BitVec 32} {i : Instr} (rest : List Byte) (h : decode (.full w) = .ok i) :
    decodeBytes ((InstBits.full w).bytes ++ rest) = .ok (i, rest) := by
  have hlow : w.extractLsb' 8 8 ++ w.extractLsb' 0 8 = w.extractLsb' 0 16 := append_bytes w 0
  have hhigh : w.extractLsb' 24 8 ++ w.extractLsb' 16 8 = w.extractLsb' 16 16 := append_bytes w 16
  have hjoin : w.extractLsb' 16 16 ++ w.extractLsb' 0 16 = w :=
    (BitVec.extractLsb'_append_extractLsb'_eq_extractLsb' rfl).trans BitVec.extractLsb'_eq_self
  simp only [InstBits.bytes, List.cons_append, List.nil_append, decodeBytes, hlow, hhigh, hjoin,
    isLong_of_decode_full h, h, headOf]
  rfl

/-- Settles O4: the first parcel tells the length, and the parcels join to the encoding, which decodes by O1. -/
theorem decodeBytesOfEncoding : Obligations.DecodeBytesOfEncoding := by
  intro i rest hwf
  have hdecode := decode_encode i hwf
  refine ⟨?bytes, ?length⟩
  case bytes =>
    cases henc : encode i with
    | full w => exact decodeBytes_full rest (henc ▸ hdecode)
    | half p => exact decodeBytes_half rest (henc ▸ hdecode)
  case length => cases i <;> rfl

end Machine

/-! ### Masks of a parcel, field by field (R210) -/

theorem Fields16.join_inj {f g : Fields16} : f.join = g.join ↔ f = g :=
  ⟨fun h => by rw [← f.split_join, h, g.split_join], fun h => h ▸ rfl⟩

theorem Fields16.join_and (f m : Fields16) :
    f.join &&& m.join = (⟨f.funct3 &&& m.funct3, f.b12 &&& m.b12, f.b11_10 &&& m.b11_10, f.b9_7 &&& m.b9_7,
      f.b6_5 &&& m.b6_5, f.b4_2 &&& m.b4_2, f.quadrant &&& m.quadrant⟩ : Fields16).join := by
  apply BitVec.eq_of_getLsbD_eq
  intro i hi
  simp only [Fields16.join, BitVec.getLsbD_and, BitVec.getLsbD_append]
  interval_cases i <;> rfl

theorem Fields16.r_eq_iff {f : Fields16} {r : RegIdx} :
    f.r = r ↔ f.b11_10 = r.extractLsb' 3 2 ∧ f.b9_7 = r.extractLsb' 0 3 := by
  constructor
  · rintro rfl
    simp (disch := omega) only [Fields16.r, BitVec.extractLsb'_append_eq_of_le,
      BitVec.extractLsb'_append_eq_of_add_le, Nat.reduceSub, BitVec.extractLsb'_eq_self, and_self]
  · rintro ⟨h1, h2⟩
    rw [Fields16.r, h1, h2]
    exact (BitVec.extractLsb'_append_extractLsb'_eq_extractLsb' rfl).trans BitVec.extractLsb'_eq_self

theorem Fields16.r2_eq_iff {f : Fields16} {r : RegIdx} :
    f.r2 = r ↔ f.b6_5 = r.extractLsb' 3 2 ∧ f.b4_2 = r.extractLsb' 0 3 := by
  constructor
  · rintro rfl
    simp (disch := omega) only [Fields16.r2, BitVec.extractLsb'_append_eq_of_le,
      BitVec.extractLsb'_append_eq_of_add_le, Nat.reduceSub, BitVec.extractLsb'_eq_self, and_self]
  · rintro ⟨h1, h2⟩
    rw [Fields16.r2, h1, h2]
    exact (BitVec.extractLsb'_append_extractLsb'_eq_extractLsb' rfl).trans BitVec.extractLsb'_eq_self

/-- A mask of funct3, inst[11:7] and the quadrant. -/
theorem Fields16.join_and_r_mask (f : Fields16) (f3 : BitVec 3) (q : BitVec 2) :
    f.join &&& 0xEF83 = (Fields16.mk f3 0 0 0 0 0 q).join ↔ f.quadrant = q ∧ f.funct3 = f3 ∧ f.r = 0 := by
  have hmask : (0xEF83 : BitVec 16) = (Fields16.mk (.allOnes 3) 0 (.allOnes 2) (.allOnes 3) 0 0 (.allOnes 2)).join := rfl
  rw [hmask, join_and, join_inj, Fields16.r_eq_iff]
  simp only [BitVec.and_allOnes]
  simp
  tauto

/-- A mask of inst[11:7] alone. -/
theorem Fields16.join_and_r_field (f : Fields16) : f.join &&& 0x0F80 = 0x0100 ↔ f.r = 2 := by
  have hmask : (0x0F80 : BitVec 16) = (Fields16.mk 0 0 (.allOnes 2) (.allOnes 3) 0 0 0).join := rfl
  have hvalue : (0x0100 : BitVec 16) = (Fields16.mk 0 0 0 2 0 0 0).join := rfl
  rw [hmask, hvalue, join_and, join_inj, Fields16.r_eq_iff]
  simp only [BitVec.and_allOnes]
  simp

/-- A field cut in two is zero when both cuts are. -/
theorem append_eq_zero_iff {m n : Nat} {a : BitVec m} {b : BitVec n} : a ++ b = 0 ↔ a = 0 ∧ b = 0 := by
  simp [BitVec.toNat_eq, BitVec.toNat_append, Nat.or_eq_zero_iff, Nat.shiftLeft_eq_zero_iff]

theorem Fields16.imm6_eq_zero_iff {f : Fields16} : f.imm6 = 0 ↔ f.b12 = 0 ∧ f.b6_5 = 0 ∧ f.b4_2 = 0 := by
  rw [Fields16.imm6, append_eq_zero_iff, append_eq_zero_iff, and_assoc]

theorem extract_bits_eq_zero_iff {v : BitVec 2} : v.extractLsb' 0 1 = 0 ∧ v.extractLsb' 1 1 = 0 ↔ v = 0 := by
  revert v
  decide

theorem Fields16.immSpn_eq_zero_iff {f : Fields16} :
    f.immSpn = 0 ↔ f.b12 = 0 ∧ f.b11_10 = 0 ∧ f.b9_7 = 0 ∧ f.b6_5 = 0 := by
  rw [Fields16.immSpn, ← extract_bits_eq_zero_iff (v := f.b11_10), ← extract_bits_eq_zero_iff (v := f.b6_5)]
  repeat rw [append_eq_zero_iff]
  tauto

theorem extract_low_high_eq_zero_iff {v : BitVec 3} : v.extractLsb' 1 2 = 0 ∧ v.extractLsb' 0 1 = 0 ↔ v = 0 := by
  revert v
  decide

theorem Fields16.imm16sp_eq_zero_iff {f : Fields16} :
    f.imm16sp = 0 ↔ f.b12 = 0 ∧ f.b6_5 = 0 ∧ f.b4_2 = 0 := by
  rw [Fields16.imm16sp, ← extract_low_high_eq_zero_iff (v := f.b4_2), ← extract_bits_eq_zero_iff (v := f.b6_5)]
  repeat rw [append_eq_zero_iff]
  tauto

/-! ### The reserved forms -/

theorem decodeQuadrant0_reserved_iff (f : Fields16) :
    decodeQuadrant0 f = .error .reservedCompressed ↔ f.funct3 = 0 ∧ f.immSpn = 0 ∧ f.b4_2 ≠ 0 := by
  unfold decodeQuadrant0
  split
  case h_1 hf3 => split <;> simp_all
  all_goals simp_all

/-- The arithmetic forms reserve nothing: their unassigned space is a row (R462). -/
theorem decodeQuadrant1Alu_ne_error (f : Fields16) (r : Reject) : decodeQuadrant1Alu f ≠ .error r := by
  unfold decodeQuadrant1Alu
  split
  case h_4 => split <;> simp
  all_goals simp

theorem decodeQuadrant1_reserved_iff (f : Fields16) :
    decodeQuadrant1 f = .error .reservedCompressed ↔
      (f.funct3 = 1 ∧ f.r = 0) ∨ (f.funct3 = 3 ∧ f.r = 2 ∧ f.imm16sp = 0) ∨
        (f.funct3 = 3 ∧ f.r ≠ 2 ∧ f.imm6 = 0) := by
  unfold decodeQuadrant1
  split
  case h_1 hf3 => split <;> simp_all
  case h_2 hf3 => split <;> simp_all
  case h_4 hf3 => split <;> simp_all
  case h_5 hf3 => simp [decodeQuadrant1Alu_ne_error, hf3]
  all_goals simp_all

theorem decodeQuadrant2Reg_reserved_iff (f : Fields16) :
    decodeQuadrant2Reg f = .error .reservedCompressed ↔ f.b12 = 0 ∧ f.r = 0 ∧ f.r2 = 0 := by
  unfold decodeQuadrant2Reg
  split
  case isTrue =>
    split
    case h_1 => split <;> simp_all
    case h_2 => split <;> simp_all
  case isFalse => split <;> simp_all

theorem decodeQuadrant2_reserved_iff (f : Fields16) :
    decodeQuadrant2 f = .error .reservedCompressed ↔
      (f.funct3 = 2 ∧ f.r = 0) ∨ (f.funct3 = 3 ∧ f.r = 0) ∨ (f.funct3 = 4 ∧ f.b12 = 0 ∧ f.r = 0 ∧ f.r2 = 0) := by
  unfold decodeQuadrant2
  split
  case h_3 hf3 => split <;> simp_all
  case h_4 hf3 => split <;> simp_all
  case h_5 hf3 => simp [decodeQuadrant2Reg_reserved_iff, hf3]
  all_goals simp_all

/-- The seven masks of R216, as fields: of quadrant 0 the zero immediate of C.ADDI4SPN but the zero parcel; of quadrant
1 C.ADDIW of x0, C.ADDI16SP and C.LUI of a zero immediate; of quadrant 2 the loads and C.JR of x0. -/
theorem Fields16.join_spn_mask_iff (f : Fields16) :
    f.join &&& 0xFFE3 = 0x0000 ∧ f.join ≠ 0 ↔ f.quadrant = 0 ∧ f.funct3 = 0 ∧ f.immSpn = 0 ∧ f.b4_2 ≠ 0 := by
  have hmask : (0xFFE3 : BitVec 16) =
      (Fields16.mk (.allOnes 3) (.allOnes 1) (.allOnes 2) (.allOnes 3) (.allOnes 2) 0 (.allOnes 2)).join := rfl
  have hzero : (0 : BitVec 16) = (Fields16.mk 0 0 0 0 0 0 0).join := rfl
  have hfields : f = Fields16.mk 0 0 0 0 0 0 0 ↔ f.funct3 = 0 ∧ f.b12 = 0 ∧ f.b11_10 = 0 ∧ f.b9_7 = 0 ∧ f.b6_5 = 0 ∧
      f.b4_2 = 0 ∧ f.quadrant = 0 := by
    rw [← Fields16.mk.injEq]
  rw [hmask, hzero, join_and, ne_eq, join_inj, join_inj, hfields, immSpn_eq_zero_iff]
  simp only [BitVec.and_allOnes]
  simp
  tauto

theorem Fields16.join_eq_asp_iff (f : Fields16) :
    f.join = 0x6101 ↔ f.quadrant = 1 ∧ f.funct3 = 3 ∧ f.r = 2 ∧ f.imm16sp = 0 := by
  have hvalue : (0x6101 : BitVec 16) = (Fields16.mk 3 0 0 2 0 0 1).join := rfl
  obtain ⟨f3, b12, b11, b9, b6, b4, q⟩ := f
  rw [hvalue, join_inj, imm16sp_eq_zero_iff, r_eq_iff, Fields16.mk.injEq]
  simp
  tauto

theorem Fields16.join_lui_mask_iff (f : Fields16) :
    f.join &&& 0xF07F = 0x6001 ∧ f.join &&& 0x0F80 ≠ 0x0100 ↔
      f.quadrant = 1 ∧ f.funct3 = 3 ∧ f.r ≠ 2 ∧ f.imm6 = 0 := by
  have hmask : (0xF07F : BitVec 16) =
      (Fields16.mk (.allOnes 3) (.allOnes 1) 0 0 (.allOnes 2) (.allOnes 3) (.allOnes 2)).join := rfl
  have hvalue : (0x6001 : BitVec 16) = (Fields16.mk 3 0 0 0 0 0 1).join := rfl
  rw [ne_eq, join_and_r_field, hmask, hvalue, join_and, join_inj, imm6_eq_zero_iff]
  simp only [BitVec.and_allOnes]
  simp
  tauto

theorem Fields16.join_eq_jr_iff (f : Fields16) :
    f.join = 0x8002 ↔ f.quadrant = 2 ∧ f.funct3 = 4 ∧ f.b12 = 0 ∧ f.r = 0 ∧ f.r2 = 0 := by
  have hvalue : (0x8002 : BitVec 16) = (Fields16.mk 4 0 0 0 0 0 2).join := rfl
  obtain ⟨f3, b12, b11, b9, b6, b4, q⟩ := f
  rw [hvalue, join_inj, r_eq_iff, r2_eq_iff, Fields16.mk.injEq]
  simp
  tauto

/-- The reserved forms of R216, by masks of the parcel: each mask names one row's fields, and each quadrant reserves
its own rows. -/
theorem decodeFields16_reserved_iff (f : Fields16) :
    decodeFields16 f = .error .reservedCompressed ↔
      (f.join &&& 0xFFE3 = 0x0000 ∧ f.join ≠ 0) ∨ f.join &&& 0xEF83 = 0x2001 ∨ f.join = 0x6101 ∨
        (f.join &&& 0xF07F = 0x6001 ∧ f.join &&& 0x0F80 ≠ 0x0100) ∨ f.join &&& 0xEF83 = 0x4002 ∨
        f.join &&& 0xEF83 = 0x6002 ∨ f.join = 0x8002 := by
  have haddiw : f.join &&& 0xEF83 = 0x2001 ↔ f.quadrant = 1 ∧ f.funct3 = 1 ∧ f.r = 0 := f.join_and_r_mask 1 1
  have hlwsp : f.join &&& 0xEF83 = 0x4002 ↔ f.quadrant = 2 ∧ f.funct3 = 2 ∧ f.r = 0 := f.join_and_r_mask 2 2
  have hldsp : f.join &&& 0xEF83 = 0x6002 ↔ f.quadrant = 2 ∧ f.funct3 = 3 ∧ f.r = 0 := f.join_and_r_mask 3 2
  rw [f.join_spn_mask_iff, haddiw, f.join_eq_asp_iff, f.join_lui_mask_iff, hlwsp, hldsp, f.join_eq_jr_iff]
  unfold decodeFields16
  split
  case h_1 hq => simp [hq, decodeQuadrant0_reserved_iff]
  case h_2 hq => simp [hq, decodeQuadrant1_reserved_iff]
  case h_3 hq => simp [hq, decodeQuadrant2_reserved_iff]
  case h_4 h0 h1 h2 => simp [eq_three_of_ne h0 h1 h2, Fields16.unknown]

namespace Machine

/-- Settles O5: either width answers exactly; a parcel outside the compressed quadrants is unknown, and in them a
rejection is a reserved form, told by its fields. -/
theorem decodeOutcomes : Obligations.DecodeOutcomes := by
  refine ⟨fun w => ?word, fun p => ?parcel, fun p => ?reserved, fun p => ?unknown⟩
  case word =>
    have hexact := decode_full_exact w
    cases h : decode (.full w) with
    | ok i => exact .inl ⟨i, rfl⟩
    | error r =>
      rw [h, Exact32, Fields32.join_split] at hexact
      exact .inr (hexact ▸ rfl)
  case parcel =>
    by_cases hq : (Fields16.split p).quadrant = 3
    · exact .inr (.inr (decode_half_of_quadrant_three hq))
    · have hexact := decode_half_exact hq
      cases h : decode (.half p) with
      | ok i => exact .inl ⟨i, rfl⟩
      | error r =>
        rw [h, Exact16] at hexact
        exact .inr (.inl (hexact ▸ rfl))
  case reserved =>
    have hfields := decodeFields16_reserved_iff (.split p)
    rwa [Fields16.join_split] at hfields
  case unknown =>
    constructor
    · intro h
      by_contra hq
      have hexact := decode_half_exact hq
      rw [h, Exact16] at hexact
      cases hexact
    · exact decode_half_of_quadrant_three

end Machine

end Sys2Proof
end

section
/-! Byte order and the physical interface (spec/20_memory.md R103 to R110): a value is built from its bytes one byte at
a time, and each kind of device has its own equation for a read and for a write. -/

namespace Sys2Proof.Machine

open Sys2Proof.Claims

/-! ### Byte order -/

/-- One more byte, below the others: what was read from the next address moves up by eight bits. -/
theorem Memory.readLE_succ_eq_append {m : Memory} {k n w : Nat} {v : BitVec w} (h : m.readLE (k + 1) n = v.setWidth 64) :
    m.readLE k (n + 1) = (v ++ m.read k).setWidth 64 := by
  rw [Memory.readLE, h]
  apply BitVec.eq_of_getLsbD_eq
  intro i hi
  rw [BitVec.getLsbD_or, BitVec.getLsbD_shiftLeft, BitVec.getLsbD_setWidth, BitVec.getLsbD_setWidth,
    BitVec.getLsbD_setWidth, BitVec.getLsbD_append]
  by_cases h8 : i < 8
  · simp [h8, hi]
  · have hbyte : (m.read k).getLsbD i = false := BitVec.getLsbD_of_ge _ _ (by omega)
    simp [h8, hi, hbyte, show i - 8 < 64 by omega]

theorem Memory.readLE_one (m : Memory) (k : Nat) : m.readLE k 1 = (m.read k).setWidth 64 := by
  simp [Memory.readLE]

/-- What an n-byte store leaves: the value's bytes from `k` on, the lowest first, and every other byte as it was. -/
theorem Memory.writeLE_bytes (m : Memory) (k n : Nat) (v : Word) :
    (∀ j, j < n → (m.writeLE k n v).read (k + j) = v.extractLsb' (8 * j) 8) ∧
      ∀ k', k' < k ∨ k + n ≤ k' → (m.writeLE k n v).read k' = m.read k' := by
  refine ⟨fun j hj => ?_, fun k' hk' => ?_⟩
  · rw [Memory.read_writeLE, if_pos (by omega), Nat.add_sub_cancel_left]
  · rw [Memory.read_writeLE, if_neg (by omega)]

/-- Settles O24: reading appends the bytes from the highest address down; a store is read back byte by byte. -/
theorem littleEndian : Obligations.LittleEndian := by
  intro m k v
  have hone : ∀ k, m.readLE k 1 = (m.read k).setWidth 64 := m.readLE_one
  have htwo := fun k => Memory.readLE_succ_eq_append (hone (k + 1))
  have hthree := fun k => Memory.readLE_succ_eq_append (htwo (k + 1))
  have hfour := fun k => Memory.readLE_succ_eq_append (hthree (k + 1))
  have hfive := fun k => Memory.readLE_succ_eq_append (hfour (k + 1))
  have hsix := fun k => Memory.readLE_succ_eq_append (hfive (k + 1))
  have hseven := fun k => Memory.readLE_succ_eq_append (hsix (k + 1))
  have height := fun k => Memory.readLE_succ_eq_append (hseven (k + 1))
  refine ⟨hone k, htwo k, hfour k, (height k).trans (BitVec.setWidth_eq _), ?_⟩
  exact fun _ n _ j hj => (m.writeLE_bytes k n v).1 j hj

/-! ### The physical interface, by the device that answers -/

theorem validWidth_iff {n : Nat} : validWidth n = true ↔ n = 1 ∨ n = 2 ∨ n = 4 ∨ n = 8 := by
  simp [validWidth, or_assoc]

section

variable {pa off : Word} {n base h : Nat} {v : Word} {tag : RmwTag} {s : State}

theorem physRead_badWidth (hn : validWidth n = false) : physRead pa n tag s = .fatal .badWidth := by
  simp [physRead, hn]

theorem physRead_absent (hn : validWidth n = true) (hr : s.plat.physMap.route pa = (.absent, off)) :
    physRead pa n tag s = .fatal (.noDevice pa n .read) := by
  simp [physRead, hn, hr]

theorem physRead_memory (hn : validWidth n = true) (hr : s.plat.physMap.route pa = (.memory base, off)) :
    physRead pa n tag s = .done (Memory.readLE s.mem (base + off.toNat) n) s := by
  simp [physRead, hn, hr]

theorem physRead_rom (hn : validWidth n = true) (hr : s.plat.physMap.route pa = (.rom base, off)) :
    physRead pa n tag s = .done (Memory.readLE s.rom (base + off.toNat) n) s := by
  simp [physRead, hn, hr]

theorem physRead_other (hn : validWidth n = true) (hr : s.plat.physMap.route pa = (.other h, off)) :
    physRead pa n tag s =
      .done (answer ⟨.other h, .read, off, n, 0, tag⟩ s) (touched ⟨.other h, .read, off, n, 0, tag⟩ s) := by
  simp only [physRead, hn, hr, if_true]
  rfl

theorem physWrite_badWidth (hn : validWidth n = false) : physWrite pa n v tag s = .fatal .badWidth := by
  simp [physWrite, hn]

theorem physWrite_absent (hn : validWidth n = true) (hr : s.plat.physMap.route pa = (.absent, off)) :
    physWrite pa n v tag s = .fatal (.noDevice pa n .write) := by
  simp [physWrite, hn, hr]

theorem physWrite_memory (hn : validWidth n = true) (hr : s.plat.physMap.route pa = (.memory base, off)) :
    physWrite pa n v tag s = .done (Memory.readLE s.mem (base + off.toNat) n)
      { s with
        mem := Memory.writeLE s.mem (base + off.toNat) n
          (rmwApply tag n (Memory.readLE s.mem (base + off.toNat) n) v) } := by
  simp [physWrite, hn, hr]

theorem physWrite_rom (hn : validWidth n = true) (hr : s.plat.physMap.route pa = (.rom base, off)) :
    physWrite pa n v tag s = .done (answer ⟨.rom base, .write, off, n, zextBytes n v, tag⟩ s)
      (touched ⟨.rom base, .write, off, n, zextBytes n v, tag⟩ s) := by
  simp only [physWrite, hn, hr, if_true]
  rfl

theorem physWrite_other (hn : validWidth n = true) (hr : s.plat.physMap.route pa = (.other h, off)) :
    physWrite pa n v tag s = .done (answer ⟨.other h, .write, off, n, zextBytes n v, tag⟩ s)
      (touched ⟨.other h, .write, off, n, zextBytes n v, tag⟩ s) := by
  simp only [physWrite, hn, hr, if_true]
  rfl

end

theorem validWidth_eq_false {n : Nat} (h : n ≠ 1 ∧ n ≠ 2 ∧ n ≠ 4 ∧ n ≠ 8) : validWidth n = false := by
  rw [← Bool.not_eq_true, validWidth_iff]
  tauto

/-- Settles O22. -/
theorem physicalRead : Obligations.PhysicalRead := by
  intro pa n tag s
  refine ⟨fun hn => physRead_badWidth (validWidth_eq_false hn), fun hn => ?_⟩
  have hn := validWidth_iff.2 hn
  exact ⟨fun _ => physRead_absent hn, fun _ _ => physRead_memory hn, fun _ _ => physRead_rom hn,
    fun _ _ => physRead_other hn⟩

/-- A plain store and SC store the value itself (R104, R109). -/
theorem rmwApply_plain (tag : RmwTag) (n : Nat) (old v : Word) :
    (if tag = .none ∨ tag = .sc then v else rmwApply tag n old v) = rmwApply tag n old v := by
  cases tag <;> rfl

/-- Settles O23. -/
theorem physicalWrite : Obligations.PhysicalWrite := by
  intro pa n v tag s
  refine ⟨fun hn => physWrite_badWidth (validWidth_eq_false hn), fun hn => ?_⟩
  have hn := validWidth_iff.2 hn
  refine ⟨fun _ => physWrite_absent hn, fun base off hr => ?_, fun _ _ => physWrite_rom hn,
    fun _ _ => physWrite_other hn⟩
  rw [rmwApply_plain]
  exact ⟨_, physWrite_memory hn hr, fun hwf => ⟨Memory.writeLE_wf hwf _ _ _, Memory.writeLE_bytes _ _ _ _⟩⟩

end Sys2Proof.Machine
end

section
/-! Sv39 translation (spec/20_memory.md R120 to R131): one level of the walk, and what a translation depends on. The
second is said once for a relation of states that entry reads respect. -/

namespace Sys2Proof.Machine

open Sys2Proof.Claims

/-! ### One level of the walk (R121 to R128) -/

section

variable {va base pte : Word} {level : Nat} {s u : State}

theorem walk_of_fatal {r : Fault} (h : physRead (pteAddress base va level) 8 .none s = .fatal r) :
    walk va (level + 1) base s = .fatal r := by
  rw [walk, h]
  rfl

theorem walk_of_bad (h : physRead (pteAddress base va level) 8 .none s = .done pte u) (hbad : pteBad pte = true) :
    walk va (level + 1) base s = .done none u := by
  rw [walk, h, Res.bind, if_pos hbad]

theorem walk_of_leaf (h : physRead (pteAddress base va level) 8 .none s = .done pte u) (hbad : ¬ pteBad pte = true)
    (hleaf : pteLeaf pte = true) : walk va (level + 1) base s = .done (some (leafAddress pte va level)) u := by
  rw [walk, h, Res.bind, if_neg hbad, if_pos hleaf]

theorem walk_of_pointer (h : physRead (pteAddress base va level) 8 .none s = .done pte u) (hbad : ¬ pteBad pte = true)
    (hleaf : ¬ pteLeaf pte = true) : walk va (level + 1) base s = walk va level (tableBase (ptePpn pte)) u := by
  rw [walk, h, Res.bind, if_neg hbad, if_neg hleaf]

end

theorem pteBad_iff (pte : Word) :
    pteBad pte = true ↔ pte.getLsbD 0 = false ∨ (pte.getLsbD 2 = true ∧ pte.getLsbD 1 = false) := by
  rw [pteBad, pteV, pteW, pteR, Bool.or_eq_true, Bool.and_eq_true, Bool.not_eq_true', Bool.not_eq_true']

theorem pteLeaf_iff (pte : Word) : pteLeaf pte = true ↔ pte.getLsbD 1 = true ∨ pte.getLsbD 3 = true := by
  rw [pteLeaf, pteR, pteX, Bool.or_eq_true]

/-- A page number is a table's address in pages of 4096 bytes. -/
theorem tableBase_eq_mul (ppn : BitVec 44) : tableBase ppn = ppn.setWidth 64 * 4096 := by
  apply BitVec.eq_of_toNat_eq
  have happend : (ppn ++ 0#12).toNat = ppn.toNat * 4096 := by
    rw [BitVec.toNat_append]
    simp [Nat.shiftLeft_eq]
  rw [tableBase, zext, BitVec.toNat_setWidth, happend, BitVec.toNat_mul, BitVec.toNat_setWidth]
  exact Nat.ModEq.mul_right 4096 (Nat.mod_modEq ppn.toNat (2 ^ 64)).symm

/-- Where translation is on, `Translate` is the walk from the root table (R120, R121, R129). -/
theorem translateVa_on (acc : AccessType) (va : Word) {s : State} (h : s.translating = true) :
    translateVa acc va s = (walk va 3 (tableBase (satpPpn s.csr.satp)) s).bind fun r u =>
      match r with
      | some pa => .done pa u
      | none => .raise acc.pageFault va u := by
  rw [translateVa]
  exact if_pos h

theorem translating_iff (s : State) :
    s.translating = true ↔ s.priv ≠ .machine ∧ s.csr.satp.extractLsb' 60 4 ≠ 0 := by
  rw [State.translating, Bool.and_eq_true, decide_eq_true_iff, decide_eq_true_iff, satpMode]

/-- Settles O26: the statement's spelling of an entry's bits and addresses is the model's, and each clause is one of
the four ways a level ends. -/
theorem pageTableWalk : Obligations.PageTableWalk := by
  intro acc va base s bad leaf next
  have hnext : ∀ pte, next pte = tableBase (ptePpn pte) := fun pte => (tableBase_eq_mul _).symm
  have hbad : ∀ pte, bad pte ↔ pteBad pte = true := fun pte => (pteBad_iff pte).symm
  have hleaf : ∀ pte, leaf pte ↔ pteLeaf pte = true := fun pte => (pteLeaf_iff pte).symm
  simp only [hnext, hbad, hleaf]
  refine ⟨?root, ?level2, ?level1, ?level0, ?fatal2, ?fatal1, ?fatal0⟩
  case root =>
    intro hp hm
    rw [translateVa_on acc va ((translating_iff s).2 ⟨hp, hm⟩), tableBase_eq_mul]
    rfl
  case level2 => exact fun pte u h => ⟨walk_of_bad h, walk_of_leaf h, walk_of_pointer h⟩
  case level1 => exact fun pte u h => ⟨walk_of_bad h, walk_of_leaf h, walk_of_pointer h⟩
  case level0 => exact fun pte u h => ⟨walk_of_bad h, walk_of_leaf h, walk_of_pointer h⟩
  case fatal2 => exact fun r h => walk_of_fatal h
  case fatal1 => exact fun r h => walk_of_fatal h
  case fatal0 => exact fun r h => walk_of_fatal h

/-! ### What a translation depends on (R131) -/

/-- Entry reads respect the relation: what one state reads the other reads, and the states stay related. -/
def ReadsAlike (R : State → State → Prop) : Prop :=
  ∀ pa s s' v u, R s s' → physRead pa 8 .none s = .done v u → ∃ u', physRead pa 8 .none s' = .done v u' ∧ R u u'

theorem walk_alike {R : State → State → Prop} (hread : ReadsAlike R) (va : Word) {levels : Nat} {base : Word}
    {s s' u : State} {r : Option Word} (hs : R s s') (h : walk va levels base s = .done r u) :
    ∃ u', walk va levels base s' = .done r u' ∧ R u u' := by
  induction levels generalizing base s s' with
  | zero =>
    cases h
    exact ⟨s', rfl, hs⟩
  | succ level ih =>
    rcases physRead_not_raise (pteAddress base va level) 8 .none s with ⟨pte, t, hpte⟩ | ⟨f, hf⟩
    · obtain ⟨t', hpte', ht⟩ := hread _ _ _ _ _ hs hpte
      by_cases hbad : pteBad pte = true
      · rw [walk_of_bad hpte hbad] at h
        cases h
        exact ⟨t', walk_of_bad hpte' hbad, ht⟩
      · by_cases hleaf : pteLeaf pte = true
        · rw [walk_of_leaf hpte hbad hleaf] at h
          cases h
          exact ⟨t', walk_of_leaf hpte' hbad hleaf, ht⟩
        · rw [walk_of_pointer hpte hbad hleaf] at h
          rw [walk_of_pointer hpte' hbad hleaf]
          exact ih ht h
    · rw [walk_of_fatal hf] at h
      cases h

theorem translateVa_alike {R : State → State → Prop} (hread : ReadsAlike R) (acc acc' : AccessType) {va pa : Word}
    {s s' u : State} (hs : R s s') (hsatp : s'.csr.satp = s.csr.satp) (hpriv : s'.priv = s.priv)
    (h : translateVa acc va s = .done pa u) : ∃ u', translateVa acc' va s' = .done pa u' ∧ R u u' := by
  have htr : s'.translating = s.translating := by rw [State.translating, State.translating, hsatp, hpriv]
  cases hon : s.translating with
  | false =>
    rw [translateVa_off acc va hon] at h
    cases h
    exact ⟨s', translateVa_off acc' va (htr.trans hon), hs⟩
  | true =>
    rw [translateVa_on acc va hon] at h
    rw [translateVa_on acc' va (htr.trans hon), hsatp]
    rcases walk_not_raise va 3 (tableBase (satpPpn s.csr.satp)) s with ⟨r, t, hw⟩ | ⟨f, hw⟩
    · obtain ⟨t', hw', ht⟩ := walk_alike hread va hs hw
      rw [hw] at h
      rw [hw']
      cases r with
      | none => cases h
      | some a =>
        cases h
        exact ⟨t', rfl, ht⟩
    · rw [hw] at h
      cases h

/-- A read does not look at `mstatus`, nor write it. -/
theorem readsAlike_mstatus (w : Word) : ReadsAlike fun s s' => s' = s.setCsr .mstatus w := by
  rintro pa s _ v u rfl h
  refine ⟨u.setCsr .mstatus w, ?_, rfl⟩
  rcases hr : s.plat.physMap.route pa with ⟨device, off⟩
  cases device with
  | absent => cases (physRead_absent rfl hr).symm.trans h
  | memory base =>
    cases (physRead_memory rfl hr).symm.trans h
    exact physRead_memory rfl hr
  | rom base =>
    cases (physRead_rom rfl hr).symm.trans h
    exact physRead_rom rfl hr
  | other handle =>
    cases (physRead_other rfl hr).symm.trans h
    exact physRead_other rfl hr

/-- Where the map is described, a read leaves its state, and the value comes from the map, memory and ROM. -/
theorem readsAlike_described {s s' : State} (hmap : s.plat.physMap.described = true) (hmem : s'.mem = s.mem)
    (hrom : s'.rom = s.rom) (hplat : s'.plat.physMap = s.plat.physMap) :
    ReadsAlike fun t t' => t = s ∧ t' = s' := by
  rintro pa t t' v u ⟨rfl, rfl⟩ h
  rcases hr : t.plat.physMap.route pa with ⟨device, off⟩
  have hr' := hr
  rw [← hplat] at hr'
  cases device with
  | absent => cases (physRead_absent rfl hr).symm.trans h
  | memory base =>
    cases (physRead_memory rfl hr).symm.trans h
    exact ⟨t', by rw [physRead_memory rfl hr', hmem], rfl, rfl⟩
  | rom base =>
    cases (physRead_rom rfl hr).symm.trans h
    exact ⟨t', by rw [physRead_rom rfl hr', hrom], rfl, rfl⟩
  | other handle =>
    have hdevice := PhysMap.route_described hmap pa
    rw [hr] at hdevice
    cases hdevice

/-- Settles O25. -/
theorem translationOff : Obligations.TranslationOff := by
  intro acc va s
  refine ⟨fun h => translateVa_off acc va ?_, fun w pa u h => ?_⟩
  · rw [← Bool.not_eq_true, translating_iff]
    tauto
  · obtain ⟨u', h', rfl⟩ := translateVa_alike (readsAlike_mstatus w) acc acc (s' := s.setCsr .mstatus w) rfl rfl rfl h
    exact h'

/-- Settles O27. -/
theorem translationDependsOn : Obligations.TranslationDependsOn := by
  intro acc acc' va pa s s' u hmap hsatp hpriv hmem hrom hplat h
  obtain ⟨u', h', rfl, rfl⟩ :=
    translateVa_alike (readsAlike_described hmap hmem hrom hplat) acc acc' ⟨rfl, rfl⟩ hsatp hpriv h
  exact ⟨rfl, h'⟩

end Sys2Proof.Machine
end

section
/-! The memory instructions (spec/42_load_store.md R310 to R323, spec/44_a_extension.md R350 to R373). They open alike:
the alignment check, the translation, and then one physical access. What the opening does is said once for any access
that follows; each shape of instruction adds what it makes of the device's answer. -/

namespace Sys2Proof.Machine

open Sys2Proof.Claims Sys2Proof.Laws

/-! ### The opening of a data access -/

theorem dataAddress_misaligned {va : Word} {n : Nat} (h : va.toNat % n ≠ 0) (acc : AccessType) (s : State) :
    dataAddress acc va n s = .raise acc.misaligned va s := by
  rw [dataAddress, if_neg (by simpa [aligned] using h)]

theorem dataAddress_aligned {va : Word} {n : Nat} (h : va.toNat % n = 0) (acc : AccessType) (s : State) :
    dataAddress acc va n s = translateVa acc va s := by
  rw [dataAddress, if_pos (by simpa [aligned] using h)]

/-- A page fault is of the access type, at the address, in a state that still has the instruction's pc (R129, R505). -/
theorem translateVa_raise {acc : AccessType} {va tval : Word} {e : Exc} {s u : State}
    (h : translateVa acc va s = .raise e tval u) : e = acc.pageFault ∧ tval = va ∧ u.pc = s.pc := by
  have hleaves := translateVa_leaves acc va s
  rw [h] at hleaves
  rcases translateVa_cases acc va s with ⟨pa, t, h'⟩ | ⟨t, h'⟩ | ⟨r, h'⟩
  · cases h'.symm.trans h
  · cases h'.symm.trans h
    exact ⟨rfl, rfl, MemOnly.pc hleaves⟩
  · cases h'.symm.trans h

/-- An instruction that opens with a data access, does `f` with the physical address, and ends with `g`. -/
def accessRun {α : Type} (acc : AccessType) (va : Word) (n : Nat) (f : Word → State → Res α)
    (g : α → State → Res Unit) (s : State) : Host.Outcome State Fault Refusal :=
  (((dataAddress acc va n s).bind f).bind g).finish

section

variable {α : Type} {acc : AccessType} {va : Word} {n : Nat} {f : Word → State → Res α} {g : α → State → Res Unit}
  {s u : State}

theorem accessRun_misaligned (h : va.toNat % n ≠ 0) :
    accessRun acc va n f g s = .next (trapEnter s.pc acc.misaligned.cause va s) := by
  rw [accessRun, dataAddress_misaligned h]
  rfl

theorem accessRun_raise {e : Exc} {tval : Word} (ha : va.toNat % n = 0) (h : translateVa acc va s = .raise e tval u) :
    accessRun acc va n f g s = .next (trapEnter s.pc acc.pageFault.cause va u) := by
  obtain ⟨rfl, rfl, hpc⟩ := translateVa_raise h
  rw [accessRun, dataAddress_aligned ha, h, ← hpc]
  rfl

theorem accessRun_fatal {r : Fault} (ha : va.toNat % n = 0) (h : translateVa acc va s = .fatal r) :
    accessRun acc va n f g s = .fault r := by
  rw [accessRun, dataAddress_aligned ha, h]
  rfl

theorem accessRun_done {pa : Word} (ha : va.toNat % n = 0) (h : translateVa acc va s = .done pa u) :
    accessRun acc va n f g s = ((f pa u).bind g).finish := by
  rw [accessRun, dataAddress_aligned ha, h]
  rfl

end

theorem setX_advance_eq_put (s : State) (rd : RegIdx) (v len : Word) : (s.setX rd v).advance len = put s rd v len := by
  rw [State.advance, State.setX_pc]
  rfl

/-! ### Each shape, by the device that answers -/

/-- R310: a load. -/
theorem loadRule_of_exec {i : Instr} {n : Nat} {va : Word} {rd : RegIdx} {ext : Word → Word} {len : Word} {s : State}
    (hexec : exec i s = load len n ext rd va s) (hn : validWidth n = true) : LoadRule i n va rd ext len s := by
  have hrun : exec i s = accessRun .load va n (fun pa s => physRead pa n .none s)
    (fun v s => .done () ((s.setX rd (ext v)).advance len)) s := hexec
  rw [LoadRule, hrun]
  refine ⟨accessRun_misaligned, fun ha => ⟨fun _ _ _ => accessRun_raise ha, fun _ => accessRun_fatal ha,
    fun pa u h => ?_⟩⟩
  rw [accessRun_done ha h]
  refine ⟨fun base off hr => ?memory, fun base off hr => ?rom, fun handle off hr => ?other, fun off hr => ?absent⟩
  case memory => rw [physRead_memory hn hr, Res.bind, setX_advance_eq_put, Res.finish]
  case rom => rw [physRead_rom hn hr, Res.bind, setX_advance_eq_put, Res.finish]
  case other => rw [physRead_other hn hr, Res.bind, setX_advance_eq_put, Res.finish]
  case absent => rw [physRead_absent hn hr, Res.bind, Res.finish]

/-- R311: a store. -/
theorem storeRule_of_exec {i : Instr} {n : Nat} {va v len : Word} {s : State}
    (hexec : exec i s = store len n va v s) (hn : validWidth n = true) : StoreRule i n va v len s := by
  have hrun : exec i s = accessRun .store va n (fun pa s => (physWrite pa n v .none s).bind fun _ s => .done () s)
    (fun _ s => .done () (s.advance len)) s := hexec
  rw [StoreRule, hrun]
  refine ⟨accessRun_misaligned, fun ha => ⟨fun _ _ _ => accessRun_raise ha, fun _ => accessRun_fatal ha,
    fun pa u h => ?_⟩⟩
  rw [accessRun_done ha h]
  refine ⟨fun base off hr => ?memory, fun base off hr => ?rom, fun handle off hr => ?other, fun off hr => ?absent⟩
  case memory =>
    rw [physWrite_memory hn hr]
    exact ⟨_, rfl, fun hwf => ⟨Memory.writeLE_wf hwf _ _ _, Memory.writeLE_bytes _ _ _ _⟩⟩
  case rom =>
    rw [physWrite_rom hn hr]
    rfl
  case other =>
    rw [physWrite_other hn hr]
    rfl
  case absent =>
    rw [physWrite_absent hn hr]
    rfl

theorem validWidth_bytes (w : AmoWidth) : validWidth w.bytes = true := by
  cases w <;> rfl

/-- R352, R353: LR. -/
theorem lrRule_of_exec {i : Instr} {w : AmoWidth} {va : Word} {rd : RegIdx} {s : State}
    (hexec : exec i s = loadReserve w rd va s) : LrRule i w va rd (sextBytes w.bytes) s := by
  have hn := validWidth_bytes w
  have hrun : exec i s = accessRun .load va w.bytes
    (fun pa s => (physRead pa w.bytes .lr s).bind fun v s => .done v (s.setResv (some ⟨pa, w⟩)))
    (fun v s => .done () ((s.setX rd (sextBytes w.bytes v)).advance ilen4)) s := hexec
  rw [LrRule, hrun]
  refine ⟨accessRun_misaligned, fun ha => ⟨fun _ _ _ => accessRun_raise ha, fun _ => accessRun_fatal ha,
    fun pa u h => ?_⟩⟩
  rw [accessRun_done ha h]
  refine ⟨fun base off hr => ?memory, fun base off hr => ?rom, fun handle off hr => ?other, fun off hr => ?absent⟩
  case memory =>
    rw [physRead_memory hn hr, Res.bind, Res.bind, setX_advance_eq_put]
    rfl
  case rom =>
    rw [physRead_rom hn hr, Res.bind, Res.bind, setX_advance_eq_put]
    rfl
  case other =>
    rw [physRead_other hn hr, Res.bind, Res.bind, setX_advance_eq_put]
    rfl
  case absent =>
    rw [physRead_absent hn hr]
    rfl

/-- R354, R355: SC. -/
theorem scRule_of_exec {i : Instr} {w : AmoWidth} {va v : Word} {rd : RegIdx} {s : State}
    (hexec : exec i s = storeCond w rd va v s) : ScRule i w va v rd s := by
  have hn := validWidth_bytes w
  have hrun : exec i s = accessRun .store va w.bytes
    (fun pa s => if s.resv = some ⟨pa, w⟩ then
        (physWrite pa w.bytes v .sc s).bind fun _ s => .done 0 (s.setResv none)
      else .done 1 (s.setResv none))
    (fun r s => .done () ((s.setX rd r).advance ilen4)) s := hexec
  rw [ScRule, hrun]
  refine ⟨accessRun_misaligned, fun ha => ⟨fun _ _ _ => accessRun_raise ha, fun _ => accessRun_fatal ha,
    fun pa u h => ?_⟩⟩
  rw [accessRun_done ha h]
  refine ⟨fun hresv => ?fails, fun hresv => ?stores⟩
  case fails =>
    rw [if_neg hresv, Res.bind, setX_advance_eq_put]
    rfl
  case stores =>
    rw [if_pos hresv]
    refine ⟨fun base off hr => ?memory, fun base off hr => ?rom, fun handle off hr => ?other, fun off hr => ?absent⟩
    case memory =>
      rw [physWrite_memory hn hr, Res.bind, Res.bind, setX_advance_eq_put]
      exact ⟨_, rfl, fun hwf => ⟨Memory.writeLE_wf hwf _ _ _, Memory.writeLE_bytes _ _ _ _⟩⟩
    case rom =>
      rw [physWrite_rom hn hr, Res.bind, Res.bind, setX_advance_eq_put]
      rfl
    case other =>
      rw [physWrite_other hn hr, Res.bind, Res.bind, setX_advance_eq_put]
      rfl
    case absent =>
      rw [physWrite_absent hn hr]
      rfl

/-- R350: an AMO whose function agrees with `f` on the bytes of its width. -/
theorem amoRule_of_exec {i : Instr} {w : AmoWidth} {tag : RmwTag} {va v : Word} {rd : RegIdx} {f : Word → Word}
    {s : State} (hexec : exec i s = amo w tag rd va v s)
    (hf : ∀ old j, j < w.bytes → (rmwApply tag w.bytes old v).extractLsb' (8 * j) 8 = (f old).extractLsb' (8 * j) 8) :
    AmoRule i w.bytes tag va v rd (sextBytes w.bytes) f s := by
  have hn := validWidth_bytes w
  have hrun : exec i s = accessRun .store va w.bytes (fun pa s => physWrite pa w.bytes v tag s)
    (fun old s => .done () ((s.setX rd (sextBytes w.bytes old)).advance ilen4)) s := hexec
  rw [AmoRule, hrun]
  refine ⟨accessRun_misaligned, fun ha => ⟨fun _ _ _ => accessRun_raise ha, fun _ => accessRun_fatal ha,
    fun pa u h => ?_⟩⟩
  rw [accessRun_done ha h]
  refine ⟨fun base off hr => ?memory, fun base off hr => ?rom, fun handle off hr => ?other, fun off hr => ?absent⟩
  case memory =>
    rw [physWrite_memory hn hr, Res.bind, setX_advance_eq_put]
    refine ⟨_, rfl, fun hwf => ⟨Memory.writeLE_wf hwf _ _ _, ?_⟩⟩
    obtain ⟨hstored, hframe⟩ := Memory.writeLE_bytes u.mem (base + off.toNat) w.bytes
      (rmwApply tag w.bytes (Memory.readLE u.mem (base + off.toNat) w.bytes) v)
    exact ⟨fun j hj => (hstored j hj).trans (hf _ j hj), hframe⟩
  case rom =>
    rw [physWrite_rom hn hr, Res.bind, setX_advance_eq_put]
    rfl
  case other =>
    rw [physWrite_other hn hr, Res.bind, setX_advance_eq_put]
    rfl
  case absent =>
    rw [physWrite_absent hn hr]
    rfl

end Sys2Proof.Machine
end

section
/-! Loads, stores and the atomics (O15 to O20): the word of a statement is the one the encoder places, so it decodes by
the round trip; the instruction's arm of `exec` is one of the shared shapes, whose rule is proved above; and the value
the statement spells is the model's. -/

namespace Sys2Proof.Machine

open Sys2Proof.Claims Sys2Proof.Laws

/-! ### The words of the statements are those the encoder places (R175, R181) -/

theorem wordS_eq_join (f3 : BitVec 3) (rs1 rs2 : RegIdx) (imm : BitVec 12) :
    wordS f3 rs1 rs2 imm = .full (Fields32.typeS 0x23 f3 rs1 rs2 imm).join := rfl

theorem wordAmo_eq_join (f5 : BitVec 5) (f3 : BitVec 3) (rd rs1 rs2 : RegIdx) (aq rl : BitVec 1) :
    wordAmo f5 f3 rd rs1 rs2 aq rl = .full (Fields32.typeAmo f3 f5 rd rs1 rs2 aq rl).join := rfl

/-- A well-formed instruction is what its own encoding decodes to. -/
theorem decode_eq_of_encode {w : InstBits} {i : Instr} (hrt : RoundTrip.Statement i) (hwf : WellFormed i)
    (hw : w = encode i) : decode w = .ok i :=
  hw ▸ hrt hwf

/-! ### The values of a load (R313 to R319): the low n bytes, extended -/

theorem sextBytes_one (v : Word) : sextBytes 1 v = (v.setWidth 8).signExtend 64 := by
  rw [BitVec.setWidth_eq_extractLsb' (by decide)]
  rfl

theorem sextBytes_two (v : Word) : sextBytes 2 v = (v.setWidth 16).signExtend 64 := by
  rw [BitVec.setWidth_eq_extractLsb' (by decide)]
  rfl

theorem sextBytes_four (v : Word) : sextBytes 4 v = (lo v).signExtend 64 := by
  rw [← low32_eq_lo]
  rfl

theorem sextBytes_eight (v : Word) : sextBytes 8 v = v := rfl

/-- The mask of n bytes keeps a value's remainder modulo `2 ^ (8 * n)`. -/
theorem toNat_zextBytes {n : Nat} (hn : n ≤ 8) (v : Word) : (zextBytes n v).toNat = v.toNat % 2 ^ (8 * n) := by
  have hpow : 2 ^ (8 * n) ≤ 2 ^ 64 := Nat.pow_le_pow_right (by decide) (by omega)
  have hmask : (2 ^ (8 * n) - 1) % 2 ^ 64 = 2 ^ (8 * n) - 1 := Nat.mod_eq_of_lt (by have := Nat.two_pow_pos (8 * n); omega)
  rw [zextBytes, BitVec.toNat_and, BitVec.toNat_ofNat, hmask, Nat.and_two_pow_sub_one_eq_mod]

theorem zextBytes_eq_setWidth {n : Nat} (hn : n ≤ 8) (v : Word) :
    zextBytes n v = (v.setWidth (8 * n)).setWidth 64 := by
  apply BitVec.eq_of_toNat_eq
  rw [toNat_zextBytes hn, BitVec.toNat_setWidth_of_le (by omega), BitVec.toNat_setWidth]

/-! ### Decoding and running a load, a store -/

theorem decodes_and_loads {w : InstBits} {i : Instr} {n : Nat} {va len : Word} {rd : RegIdx} {ext ext' : Word → Word}
    {s : State} (hrt : RoundTrip.Statement i) (hwf : WellFormed i) (hw : w = encode i)
    (hexec : exec i s = load len n ext rd va s) (hn : validWidth n = true) (hext : ∀ v, ext v = ext' v) :
    decode w = .ok i ∧ LoadRule i n va rd ext' len s := by
  obtain rfl : ext = ext' := funext hext
  exact ⟨decode_eq_of_encode hrt hwf hw, loadRule_of_exec hexec hn⟩

theorem decodes_and_stores {w : InstBits} {i : Instr} {n : Nat} {va v len : Word} {s : State}
    (hrt : RoundTrip.Statement i) (hwf : WellFormed i) (hw : w = encode i)
    (hexec : exec i s = store len n va v s) (hn : validWidth n = true) :
    decode w = .ok i ∧ StoreRule i n va v len s :=
  ⟨decode_eq_of_encode hrt hwf hw, storeRule_of_exec hexec hn⟩

/-- Settles O15: each is the one load rule, at its width and with its extension. -/
theorem loads : Obligations.Loads := by
  intro s rd rs1 imm va
  refine ⟨?lb, ?lh, ?lw, ?ld, ?lbu, ?lhu, ?lwu⟩
  case lb => exact decodes_and_loads (RoundTrip.lb rd rs1 imm) rfl (wordI_eq_join ..) rfl rfl sextBytes_one
  case lh => exact decodes_and_loads (RoundTrip.lh rd rs1 imm) rfl (wordI_eq_join ..) rfl rfl sextBytes_two
  case lw => exact decodes_and_loads (RoundTrip.lw rd rs1 imm) rfl (wordI_eq_join ..) rfl rfl sextBytes_four
  case ld => exact decodes_and_loads (RoundTrip.ld rd rs1 imm) rfl (wordI_eq_join ..) rfl rfl sextBytes_eight
  case lbu =>
    exact decodes_and_loads (RoundTrip.lbu rd rs1 imm) rfl (wordI_eq_join ..) rfl rfl
      (zextBytes_eq_setWidth (by decide))
  case lhu =>
    exact decodes_and_loads (RoundTrip.lhu rd rs1 imm) rfl (wordI_eq_join ..) rfl rfl
      (zextBytes_eq_setWidth (by decide))
  case lwu =>
    exact decodes_and_loads (RoundTrip.lwu rd rs1 imm) rfl (wordI_eq_join ..) rfl rfl
      (zextBytes_eq_setWidth (by decide))

/-- Settles O16: each is the one store rule, at its width. -/
theorem stores : Obligations.Stores := by
  intro s rs1 rs2 imm va v
  refine ⟨?sb, ?sh, ?sw, ?sd⟩
  case sb => exact decodes_and_stores (RoundTrip.sb rs1 rs2 imm) rfl (wordS_eq_join ..) rfl rfl
  case sh => exact decodes_and_stores (RoundTrip.sh rs1 rs2 imm) rfl (wordS_eq_join ..) rfl rfl
  case sw => exact decodes_and_stores (RoundTrip.sw rs1 rs2 imm) rfl (wordS_eq_join ..) rfl rfl
  case sd => exact decodes_and_stores (RoundTrip.sd rs1 rs2 imm) rfl (wordS_eq_join ..) rfl rfl

/-- The value of a word atomic, as the statements spell it. -/
theorem sextBytes_word : sextBytes AmoWidth.word.bytes = fun v => (lo v).signExtend 64 := funext sextBytes_four

/-! The model's own operations bear the names of O17 and O18; the theorems stand in a namespace beside them. -/

namespace Atomics

/-- Settles O17: both are the one rule of a load-reserved. -/
theorem loadReserved : Obligations.LoadReserved := by
  intro s rd rs1 aq rl
  refine ⟨⟨?decodeW, ?ruleW⟩, ?decodeD, ?ruleD⟩
  case decodeW => exact decode_eq_of_encode (RoundTrip.lrW rd rs1 aq rl) rfl (wordAmo_eq_join ..)
  case ruleW =>
    rw [← sextBytes_word]
    exact lrRule_of_exec rfl
  case decodeD => exact decode_eq_of_encode (RoundTrip.lrD rd rs1 aq rl) rfl (wordAmo_eq_join ..)
  case ruleD => exact lrRule_of_exec rfl

/-- Settles O18: both are the one rule of a store-conditional. -/
theorem storeConditional : Obligations.StoreConditional := by
  intro s rd rs1 rs2 aq rl
  refine ⟨⟨?decodeW, scRule_of_exec rfl⟩, ?decodeD, scRule_of_exec rfl⟩
  case decodeW => exact decode_eq_of_encode (RoundTrip.scW rd rs1 rs2 aq rl) rfl (wordAmo_eq_join ..)
  case decodeD => exact decode_eq_of_encode (RoundTrip.scD rd rs1 rs2 aq rl) rfl (wordAmo_eq_join ..)

end Atomics

/-! ### The functions of the AMOs (R350, R356 to R373) -/

theorem signedBytes_four (v : Word) : signedBytes 4 v = (lo v).toInt := by
  rw [signedBytes, sextBytes_four, BitVec.toInt_signExtend_of_le (by decide)]

theorem unsignedBytes_four (v : Word) : unsignedBytes 4 v = (lo v).toNat :=
  toNat_zextBytes (by decide) v

theorem signedBytes_eight (v : Word) : signedBytes 8 v = v.toInt := rfl

theorem unsignedBytes_eight (v : Word) : unsignedBytes 8 v = v.toNat :=
  (toNat_zextBytes (by decide) v).trans (Nat.mod_eq_of_lt v.isLt)

theorem lo_ite (p : Prop) [Decidable p] (a b : Word) : lo (if p then a else b) = if p then lo a else lo b :=
  apply_ite lo p a b

/-- A byte below the fourth is a byte of the low half. -/
theorem extractLsb'_byte_of_lo {j : Nat} (hj : j < 4) (x : Word) :
    x.extractLsb' (8 * j) 8 = ((lo x).setWidth 64).extractLsb' (8 * j) 8 := by
  apply BitVec.eq_of_getLsbD_eq
  intro k hk
  rw [BitVec.getLsbD_extractLsb', BitVec.getLsbD_extractLsb', lo, BitVec.getLsbD_setWidth, BitVec.getLsbD_setWidth]
  have hlow : 8 * j + k < 32 := by omega
  have hword : 8 * j + k < 64 := by omega
  simp [hlow, hword]

/-- A word AMO: `f` is its function on the low halves. -/
theorem decodes_and_amoWord {w : InstBits} {i : Instr} {tag : RmwTag} {rd rs1 rs2 : RegIdx}
    {f : BitVec 32 → BitVec 32 → BitVec 32} {s : State} (hrt : RoundTrip.Statement i) (hwf : WellFormed i)
    (hw : w = encode i) (hexec : exec i s = amo .word tag rd (s.getX rs1) (s.getX rs2) s)
    (hf : ∀ old v, lo (rmwApply tag 4 old v) = f (lo old) (lo v)) :
    decode w = .ok i ∧ AmoWord i tag rd rs1 rs2 f s := by
  refine ⟨decode_eq_of_encode hrt hwf hw, ?_⟩
  rw [AmoWord, ← sextBytes_word]
  exact amoRule_of_exec (w := .word) hexec fun old j hj => by
    rw [← hf]
    exact extractLsb'_byte_of_lo hj _

/-- A doubleword AMO: `f` is its function. -/
theorem decodes_and_amoDouble {w : InstBits} {i : Instr} {tag : RmwTag} {rd rs1 rs2 : RegIdx} {f : Word → Word → Word}
    {s : State} (hrt : RoundTrip.Statement i) (hwf : WellFormed i) (hw : w = encode i)
    (hexec : exec i s = amo .double tag rd (s.getX rs1) (s.getX rs2) s)
    (hf : ∀ old v, rmwApply tag 8 old v = f old v) : decode w = .ok i ∧ AmoDouble i tag rd rs1 rs2 f s := by
  refine ⟨decode_eq_of_encode hrt hwf hw, amoRule_of_exec (w := .double) hexec fun old j _ => ?_⟩
  exact congrArg _ (hf old (s.getX rs2))

/-- Settles O19: each is the one rule of an AMO; its function, cut to 32 bits, is that of the low halves. -/
theorem amoWordForms : Obligations.AmoWordForms := by
  intro s rd rs1 rs2 aq rl
  refine ⟨?swap, ?add, ?xor, ?and, ?or, ?min, ?max, ?minu, ?maxu⟩
  case swap =>
    exact decodes_and_amoWord (RoundTrip.amoswapW rd rs1 rs2 aq rl) rfl (wordAmo_eq_join ..) rfl fun _ _ => rfl
  case add => exact decodes_and_amoWord (RoundTrip.amoaddW rd rs1 rs2 aq rl) rfl (wordAmo_eq_join ..) rfl lo_add
  case xor =>
    exact decodes_and_amoWord (RoundTrip.amoxorW rd rs1 rs2 aq rl) rfl (wordAmo_eq_join ..) rfl
      fun _ _ => BitVec.setWidth_xor
  case and =>
    exact decodes_and_amoWord (RoundTrip.amoandW rd rs1 rs2 aq rl) rfl (wordAmo_eq_join ..) rfl
      fun _ _ => BitVec.setWidth_and
  case or =>
    exact decodes_and_amoWord (RoundTrip.amoorW rd rs1 rs2 aq rl) rfl (wordAmo_eq_join ..) rfl
      fun _ _ => BitVec.setWidth_or
  case min =>
    exact decodes_and_amoWord (RoundTrip.amominW rd rs1 rs2 aq rl) rfl (wordAmo_eq_join ..) rfl
      fun old v => by rw [rmwApply, lo_ite, signedBytes_four, signedBytes_four]
  case max =>
    exact decodes_and_amoWord (RoundTrip.amomaxW rd rs1 rs2 aq rl) rfl (wordAmo_eq_join ..) rfl
      fun old v => by rw [rmwApply, lo_ite, signedBytes_four, signedBytes_four]
  case minu =>
    exact decodes_and_amoWord (RoundTrip.amominuW rd rs1 rs2 aq rl) rfl (wordAmo_eq_join ..) rfl
      fun old v => by rw [rmwApply, lo_ite, unsignedBytes_four, unsignedBytes_four]
  case maxu =>
    exact decodes_and_amoWord (RoundTrip.amomaxuW rd rs1 rs2 aq rl) rfl (wordAmo_eq_join ..) rfl
      fun old v => by rw [rmwApply, lo_ite, unsignedBytes_four, unsignedBytes_four]

/-- Settles O20: each is the one rule of an AMO; an eight-byte operand is read whole. -/
theorem amoDoubleForms : Obligations.AmoDoubleForms := by
  intro s rd rs1 rs2 aq rl
  refine ⟨?swap, ?add, ?xor, ?and, ?or, ?min, ?max, ?minu, ?maxu⟩
  case swap =>
    exact decodes_and_amoDouble (RoundTrip.amoswapD rd rs1 rs2 aq rl) rfl (wordAmo_eq_join ..) rfl fun _ _ => rfl
  case add =>
    exact decodes_and_amoDouble (RoundTrip.amoaddD rd rs1 rs2 aq rl) rfl (wordAmo_eq_join ..) rfl fun _ _ => rfl
  case xor =>
    exact decodes_and_amoDouble (RoundTrip.amoxorD rd rs1 rs2 aq rl) rfl (wordAmo_eq_join ..) rfl fun _ _ => rfl
  case and =>
    exact decodes_and_amoDouble (RoundTrip.amoandD rd rs1 rs2 aq rl) rfl (wordAmo_eq_join ..) rfl fun _ _ => rfl
  case or =>
    exact decodes_and_amoDouble (RoundTrip.amoorD rd rs1 rs2 aq rl) rfl (wordAmo_eq_join ..) rfl fun _ _ => rfl
  case min =>
    exact decodes_and_amoDouble (RoundTrip.amominD rd rs1 rs2 aq rl) rfl (wordAmo_eq_join ..) rfl
      fun old v => by rw [rmwApply, signedBytes_eight, signedBytes_eight]
  case max =>
    exact decodes_and_amoDouble (RoundTrip.amomaxD rd rs1 rs2 aq rl) rfl (wordAmo_eq_join ..) rfl
      fun old v => by rw [rmwApply, signedBytes_eight, signedBytes_eight]
  case minu =>
    exact decodes_and_amoDouble (RoundTrip.amominuD rd rs1 rs2 aq rl) rfl (wordAmo_eq_join ..) rfl
      fun old v => by rw [rmwApply, unsignedBytes_eight, unsignedBytes_eight]
  case maxu =>
    exact decodes_and_amoDouble (RoundTrip.amomaxuD rd rs1 rs2 aq rl) rfl (wordAmo_eq_join ..) rfl
      fun old v => by rw [rmwApply, unsignedBytes_eight, unsignedBytes_eight]

end Sys2Proof.Machine
end

section
/-! The compressed immediate forms, transfers, loads and stores (spec/47_c_extension.md; O41, O43, O44, O45). The parcels
of the statements are those the encoder places; a reserved operand value is one of the rows of the quadrant's reserved
forms. -/

namespace Sys2Proof

/-! ### The parcels, with each cut of the immediate as the statements write it -/

theorem Fields16.join_typeSpn (rd : CRegIdx) (imm : BitVec 8) :
    (Fields16.typeSpn rd imm).join = 0b000#3 ++ imm.extractLsb' 2 2 ++ imm.extractLsb' 4 4 ++ imm.extractLsb' 0 1 ++
      imm.extractLsb' 1 1 ++ rd ++ 0b00#2 := by
  apply BitVec.eq_of_getLsbD_eq
  intro i hi
  simp only [Fields16.typeSpn, Fields16.join, BitVec.getLsbD_append, BitVec.getLsbD_extractLsb']
  interval_cases i <;> rfl

theorem Fields16.join_type16sp (imm : BitVec 6) :
    (Fields16.type16sp imm).join = 0b011#3 ++ imm.extractLsb' 5 1 ++ 2#5 ++ imm.extractLsb' 0 1 ++
      imm.extractLsb' 2 1 ++ imm.extractLsb' 3 2 ++ imm.extractLsb' 1 1 ++ 0b01#2 := by
  apply BitVec.eq_of_getLsbD_eq
  intro i hi
  simp only [Fields16.type16sp, Fields16.join, BitVec.getLsbD_append, BitVec.getLsbD_extractLsb']
  interval_cases i <;> rfl

theorem Fields16.join_typeCWord (f3 : BitVec 3) (r r2 : CRegIdx) (imm : BitVec 5) :
    (Fields16.typeCWord f3 r r2 imm).join = f3 ++ imm.extractLsb' 1 3 ++ r ++ imm.extractLsb' 0 1 ++
      imm.extractLsb' 4 1 ++ r2 ++ 0b00#2 := by
  apply BitVec.eq_of_getLsbD_eq
  intro i hi
  simp only [Fields16.typeCWord, Fields16.join, BitVec.getLsbD_append, BitVec.getLsbD_extractLsb']
  interval_cases i <;> rfl

theorem Fields16.join_typeCDouble (f3 : BitVec 3) (r r2 : CRegIdx) (imm : BitVec 5) :
    (Fields16.typeCDouble f3 r r2 imm).join = f3 ++ imm.extractLsb' 0 3 ++ r ++ imm.extractLsb' 3 2 ++ r2 ++
      0b00#2 := by
  apply BitVec.eq_of_getLsbD_eq
  intro i hi
  simp only [Fields16.typeCDouble, Fields16.join, BitVec.getLsbD_append, BitVec.getLsbD_extractLsb']
  interval_cases i <;> rfl

theorem Fields16.join_typeCJ (imm : BitVec 11) :
    (Fields16.typeCJ imm).join = 0b101#3 ++ imm.extractLsb' 10 1 ++ imm.extractLsb' 3 1 ++ imm.extractLsb' 7 2 ++
      imm.extractLsb' 9 1 ++ imm.extractLsb' 5 1 ++ imm.extractLsb' 6 1 ++ imm.extractLsb' 0 3 ++
      imm.extractLsb' 4 1 ++ 0b01#2 := by
  apply BitVec.eq_of_getLsbD_eq
  intro i hi
  simp only [Fields16.typeCJ, Fields16.join, BitVec.getLsbD_append, BitVec.getLsbD_extractLsb']
  interval_cases i <;> rfl

theorem Fields16.join_typeCBranch (f3 : BitVec 3) (r : CRegIdx) (imm : BitVec 8) :
    (Fields16.typeCBranch f3 r imm).join = f3 ++ imm.extractLsb' 7 1 ++ imm.extractLsb' 2 2 ++ r ++
      imm.extractLsb' 5 2 ++ imm.extractLsb' 0 2 ++ imm.extractLsb' 4 1 ++ 0b01#2 := by
  apply BitVec.eq_of_getLsbD_eq
  intro i hi
  simp only [Fields16.typeCBranch, Fields16.join, BitVec.getLsbD_append, BitVec.getLsbD_extractLsb']
  interval_cases i <;> rfl

theorem Fields16.join_typeLwsp (r : RegIdx) (imm : BitVec 6) :
    (Fields16.typeLwsp r imm).join = 0b010#3 ++ imm.extractLsb' 3 1 ++ r ++ imm.extractLsb' 0 3 ++
      imm.extractLsb' 4 2 ++ 0b10#2 := by
  apply BitVec.eq_of_getLsbD_eq
  intro i hi
  simp only [Fields16.typeLwsp, Fields16.join, BitVec.getLsbD_append, BitVec.getLsbD_extractLsb']
  interval_cases i <;> rfl

theorem Fields16.join_typeLdsp (r : RegIdx) (imm : BitVec 6) :
    (Fields16.typeLdsp r imm).join = 0b011#3 ++ imm.extractLsb' 2 1 ++ r ++ imm.extractLsb' 0 2 ++
      imm.extractLsb' 3 3 ++ 0b10#2 := by
  apply BitVec.eq_of_getLsbD_eq
  intro i hi
  simp only [Fields16.typeLdsp, Fields16.join, BitVec.getLsbD_append, BitVec.getLsbD_extractLsb']
  interval_cases i <;> rfl

theorem Fields16.join_typeSwsp (r2 : RegIdx) (imm : BitVec 6) :
    (Fields16.typeSwsp r2 imm).join = 0b110#3 ++ imm.extractLsb' 0 4 ++ imm.extractLsb' 4 2 ++ r2 ++ 0b10#2 := by
  apply BitVec.eq_of_getLsbD_eq
  intro i hi
  simp only [Fields16.typeSwsp, Fields16.join, BitVec.getLsbD_append, BitVec.getLsbD_extractLsb']
  interval_cases i <;> rfl

theorem Fields16.join_typeSdsp (r2 : RegIdx) (imm : BitVec 6) :
    (Fields16.typeSdsp r2 imm).join = 0b111#3 ++ imm.extractLsb' 0 3 ++ imm.extractLsb' 3 3 ++ r2 ++ 0b10#2 := by
  apply BitVec.eq_of_getLsbD_eq
  intro i hi
  simp only [Fields16.typeSdsp, Fields16.join, BitVec.getLsbD_append, BitVec.getLsbD_extractLsb']
  interval_cases i <;> rfl

namespace Machine

open Sys2Proof.Claims Sys2Proof.Laws

/-! ### Reserved operand values (R216) -/

theorem decode_half_join (f : Fields16) : decode (.half f.join) = decodeFields16 f :=
  congrArg decodeFields16 f.split_join

theorem decode_eq_reserved_of_quadrant0 {w : InstBits} {f : Fields16} (hw : w = .half f.join) (hq : f.quadrant = 0)
    (h : f.funct3 = 0 ∧ f.immSpn = 0 ∧ f.b4_2 ≠ 0) : decode w = .error .reservedCompressed := by
  rw [hw, decode_half_join, decodeFields16, hq]
  exact (decodeQuadrant0_reserved_iff f).2 h

theorem decode_eq_reserved_of_quadrant1 {w : InstBits} {f : Fields16} (hw : w = .half f.join) (hq : f.quadrant = 1)
    (h : (f.funct3 = 1 ∧ f.r = 0) ∨ (f.funct3 = 3 ∧ f.r = 2 ∧ f.imm16sp = 0) ∨
      (f.funct3 = 3 ∧ f.r ≠ 2 ∧ f.imm6 = 0)) : decode w = .error .reservedCompressed := by
  rw [hw, decode_half_join, decodeFields16, hq]
  exact (decodeQuadrant1_reserved_iff f).2 h

theorem decode_eq_reserved_of_quadrant2 {w : InstBits} {f : Fields16} (hw : w = .half f.join) (hq : f.quadrant = 2)
    (h : (f.funct3 = 2 ∧ f.r = 0) ∨ (f.funct3 = 3 ∧ f.r = 0) ∨ (f.funct3 = 4 ∧ f.b12 = 0 ∧ f.r = 0 ∧ f.r2 = 0)) :
    decode w = .error .reservedCompressed := by
  rw [hw, decode_half_join, decodeFields16, hq]
  exact (decodeQuadrant2_reserved_iff f).2 h

/-! ### The instructions -/

/-- Settles O41: one register write each; a write of x0 is none, and a reserved operand value is the row's reserved
form. -/
theorem compressedImmediates : Obligations.CompressedImmediates := by
  intro s rd r i8 i6 spn asp z
  have hspn (d : CRegIdx) (i : BitVec 8) : spn d i = .half (Fields16.typeSpn d i).join :=
    congrArg InstBits.half (Fields16.join_typeSpn d i).symm
  have hasp (i : BitVec 6) : asp i = .half (Fields16.type16sp i).join :=
    congrArg InstBits.half (Fields16.join_type16sp i).symm
  refine ⟨?spn, ?spnReserved, ?nop, ?addi, ?addiw, ?addiwReserved, ?li, ?asp, ?aspReserved, ?lui, ?luiReserved⟩
  case spn =>
    intro hi8
    exact does_put_compressed (RoundTrip.cAddi4spn rd i8) (decide_eq_true hi8) (hspn ..) rfl rfl
  case spnReserved =>
    intro hrd
    exact decode_eq_reserved_of_quadrant0 (hspn rd 0) rfl ⟨rfl, Fields16.immSpn_typeSpn rd 0, hrd⟩
  case nop => exact does_of_encode (RoundTrip.cNop i6) rfl (parcelCI_eq_join ..) rfl
  case addi =>
    intro hr
    exact does_put_compressed (RoundTrip.cAddi r i6) (decide_eq_true hr) (parcelCI_eq_join ..) rfl rfl
  case addiw =>
    intro hr
    exact does_put_compressed (RoundTrip.cAddiw r i6) (decide_eq_true hr) (parcelCI_eq_join ..) rfl (addwVal_eq ..)
  case addiwReserved =>
    exact decode_eq_reserved_of_quadrant1 (parcelCI_eq_join ..) rfl (.inl ⟨rfl, Fields16.r_typeCI 1 1 0 i6⟩)
  case li => exact does_put_compressed (RoundTrip.cLi r i6) rfl (parcelCI_eq_join ..) rfl (addVal_getX_x0 s z)
  case asp =>
    intro hi6
    exact does_put_compressed (RoundTrip.cAddi16sp i6) (decide_eq_true hi6) (hasp i6) rfl rfl
  case aspReserved =>
    exact decode_eq_reserved_of_quadrant1 (hasp 0) rfl
      (.inr (.inl ⟨rfl, Fields16.r_type16sp 0, Fields16.imm16sp_type16sp 0⟩))
  case lui =>
    intro hr hi6
    have hwf : WellFormed (.cLui r i6) :=
      Bool.and_eq_true_iff.2 ⟨decide_eq_true hr, decide_eq_true hi6⟩
    exact does_put_compressed (RoundTrip.cLui r i6) hwf (parcelCI_eq_join ..) rfl rfl
  case luiReserved =>
    intro hr
    have hreg : (Fields16.typeCI 1 3 r 0).r ≠ 2 := by rwa [Fields16.r_typeCI]
    exact decode_eq_reserved_of_quadrant1 (parcelCI_eq_join ..) rfl
      (.inr (.inr ⟨rfl, hreg, Fields16.imm6_typeCI 1 3 r 0⟩))

/-- Settles O43: C.J and C.JR link x0, which discards the write; a branch compares with x0, which reads 0. -/
theorem compressedTransfers : Obligations.CompressedTransfers := by
  intro s c r o11 o8 cj cb t
  have hcb (f3 : BitVec 3) : cb f3 = .half (Fields16.typeCBranch f3 c o8).join :=
    congrArg InstBits.half (Fields16.join_typeCBranch f3 c o8).symm
  refine ⟨?cj, ?beqz, ?bnez, ?jalr, ?jr, ?jrReserved⟩
  case cj =>
    exact does_of_encode (RoundTrip.cJ o11) rfl (congrArg InstBits.half (Fields16.join_typeCJ o11).symm) rfl
  case beqz => exact does_of_encode (RoundTrip.cBeqz c o8) rfl (hcb 6) (branch_eq_ite beq_iff_eq ..)
  case bnez =>
    rw [← ite_not (s.getX (creg c) = 0)]
    exact does_of_encode (RoundTrip.cBnez c o8) rfl (hcb 7) (branch_eq_ite bne_iff_ne ..)
  case jalr =>
    intro hr
    exact does_of_encode (RoundTrip.cJalr r) (decide_eq_true hr) (parcelCR_eq_join 1 ..) rfl
  case jr =>
    intro hr
    exact does_of_encode (RoundTrip.cJr r) (decide_eq_true hr) (parcelCR_eq_join 0 ..) rfl
  case jrReserved =>
    exact decode_eq_reserved_of_quadrant2 (parcelCR_eq_join 0 ..) rfl
      (.inr (.inr ⟨rfl, rfl, Fields16.r_typeCR 0 0 0, Fields16.r2_typeCR 0 0 0⟩))

/-- Settles O44: each is the one load rule, at its width and with its address; a load into x0 from the stack is
reserved, though `exec` gives it the same meaning. -/
theorem compressedLoads : Obligations.CompressedLoads := by
  intro s d b r i5 i6 base lwsp ldsp
  have hlwsp (r : RegIdx) : lwsp r = .half (Fields16.typeLwsp r i6).join :=
    congrArg InstBits.half (Fields16.join_typeLwsp r i6).symm
  have hldsp (r : RegIdx) : ldsp r = .half (Fields16.typeLdsp r i6).join :=
    congrArg InstBits.half (Fields16.join_typeLdsp r i6).symm
  have hword : sextBytes 4 = fun v => (lo v).signExtend 64 := funext sextBytes_four
  refine ⟨?lw, ?ld, ?lwsp, ?lwspReserved, ?lwspRule, ?ldsp, ?ldspReserved, loadRule_of_exec rfl rfl⟩
  case lw =>
    exact decodes_and_loads (RoundTrip.cLw d b i5) rfl
      (congrArg InstBits.half (Fields16.join_typeCWord 2 b d i5).symm) rfl rfl sextBytes_four
  case ld =>
    exact decodes_and_loads (RoundTrip.cLd d b i5) rfl
      (congrArg InstBits.half (Fields16.join_typeCDouble 3 b d i5).symm) rfl rfl sextBytes_eight
  case lwsp =>
    intro hr
    exact decode_eq_of_encode (RoundTrip.cLwsp r i6) (decide_eq_true hr) (hlwsp r)
  case lwspReserved =>
    exact decode_eq_reserved_of_quadrant2 (hlwsp 0) rfl (.inl ⟨rfl, Fields16.r_typeLwsp 0 i6⟩)
  case lwspRule =>
    rw [← hword]
    exact loadRule_of_exec rfl rfl
  case ldsp =>
    intro hr
    exact decode_eq_of_encode (RoundTrip.cLdsp r i6) (decide_eq_true hr) (hldsp r)
  case ldspReserved =>
    exact decode_eq_reserved_of_quadrant2 (hldsp 0) rfl (.inr (.inl ⟨rfl, Fields16.r_typeLdsp 0 i6⟩))

/-- Settles O45: each is the one store rule, at its width and with its address. -/
theorem compressedStores : Obligations.CompressedStores := by
  intro s b c r i5 i6 base
  refine ⟨?sw, ?sd, ?swsp, ?sdsp⟩
  case sw =>
    exact decodes_and_stores (RoundTrip.cSw b c i5) rfl
      (congrArg InstBits.half (Fields16.join_typeCWord 6 b c i5).symm) rfl rfl
  case sd =>
    exact decodes_and_stores (RoundTrip.cSd b c i5) rfl
      (congrArg InstBits.half (Fields16.join_typeCDouble 7 b c i5).symm) rfl rfl
  case swsp =>
    exact decodes_and_stores (RoundTrip.cSwsp r i6) rfl
      (congrArg InstBits.half (Fields16.join_typeSwsp r i6).symm) rfl rfl
  case sdsp =>
    exact decodes_and_stores (RoundTrip.cSdsp r i6) rfl
      (congrArg InstBits.half (Fields16.join_typeSdsp r i6).symm) rfl rfl

end Machine

end Sys2Proof
end

section
/-! The law of division (spec/43_m_extension.md R330): quotient and remainder of any width, and then the instructions'
registers. -/

namespace Sys2Proof.Machine

open Sys2Proof.Claims Sys2Proof.Laws

/-! ### Signed quotient and remainder of any width -/

theorem toInt_ne_zero {n : Nat} {b : BitVec n} (hb : b ≠ 0) : b.toInt ≠ 0 := fun h =>
  hb (BitVec.toInt_inj.1 (h.trans BitVec.toInt_zero.symm))

/-- dividend = divisor * quotient + remainder. In the overflow case the quotient is the dividend and is its own
negation; else the exact quotient and remainder add up before they are narrowed. -/
theorem mul_divSigned_add_remSigned {k : Nat} {a b : BitVec (k + 1)} (hb : b ≠ 0) :
    b * divSigned a b + remSigned a b = a := by
  rw [divSigned_eq, remSigned_eq, if_neg hb, if_neg hb]
  split
  case isTrue hover =>
    obtain ⟨ha, hone⟩ := hover
    rw [← eq_intMin_iff_toInt] at ha
    rw [← eq_allOnes_iff_toInt, ← BitVec.neg_one_eq_allOnes] at hone
    rw [ha, hone, BitVec.neg_mul, BitVec.one_mul, BitVec.neg_intMin]
    exact BitVec.add_zero _
  case isFalse =>
    have hmul : b * BitVec.ofInt (k + 1) (a.toInt.tdiv b.toInt) =
        BitVec.ofInt (k + 1) (b.toInt * a.toInt.tdiv b.toInt) := by
      rw [BitVec.ofInt_mul, BitVec.ofInt_toInt]
    rw [hmul, ← BitVec.ofInt_add, add_sub_cancel, BitVec.ofInt_toInt]

/-- The signed remainder is the exact one: it lies below the divisor in magnitude, so it fits the width; -1 leaves no
remainder. -/
theorem toInt_remSigned {k : Nat} {a b : BitVec (k + 1)} (hb : b ≠ 0) :
    (remSigned a b).toInt = a.toInt.tmod b.toInt := by
  rw [remSigned_eq, if_neg hb]
  split
  case isTrue hover =>
    rw [hover.2, Int.tmod_neg, Int.tmod_one]
    exact BitVec.toInt_zero
  case isFalse =>
    rw [← Int.tmod_def]
    have hlt : (a.toInt.tmod b.toInt).natAbs < b.toInt.natAbs := by
      rw [Int.natAbs_tmod]
      exact Nat.mod_lt _ (Int.natAbs_pos.2 (toInt_ne_zero hb))
    have hlow : -2 ^ k ≤ b.toInt := b.le_toInt
    have hhigh : b.toInt < 2 ^ k := b.toInt_lt
    exact BitVec.toInt_ofInt_eq_self k.succ_pos (by rw [Nat.succ_sub_one]; omega) (by rw [Nat.succ_sub_one]; omega)

theorem natAbs_remSigned_lt {k : Nat} {a b : BitVec (k + 1)} (hb : b ≠ 0) :
    (remSigned a b).toInt.natAbs < b.toInt.natAbs := by
  rw [toInt_remSigned hb, Int.natAbs_tmod]
  exact Nat.mod_lt _ (Int.natAbs_pos.2 (toInt_ne_zero hb))

/-- The truncated remainder takes the dividend's sign: it is not negative for a dividend that is not, and the negation
of the negated dividend's. -/
theorem remSigned_neg_iff {k : Nat} {a b : BitVec (k + 1)} (hb : b ≠ 0) (hr : remSigned a b ≠ 0) :
    (remSigned a b).toInt < 0 ↔ a.toInt < 0 := by
  have hr' := toInt_ne_zero hr
  rw [toInt_remSigned hb] at hr' ⊢
  by_cases ha : a.toInt < 0
  · have hneg : 0 ≤ (-a.toInt).tmod b.toInt := Int.tmod_nonneg _ (by omega)
    rw [Int.neg_tmod] at hneg
    omega
  · have hnonneg : 0 ≤ a.toInt.tmod b.toInt := Int.tmod_nonneg _ (by omega)
    omega

/-! ### Unsigned quotient and remainder of any width -/

theorem mul_divUnsigned_add_remUnsigned {n : Nat} {a b : BitVec n} (hb : b ≠ 0) :
    b * divUnsigned a b + remUnsigned a b = a := by
  rw [divUnsigned, remUnsigned, if_neg hb, if_neg hb]
  have hmul : b * BitVec.ofNat n (a.toNat / b.toNat) = BitVec.ofNat n (b.toNat * (a.toNat / b.toNat)) := by
    rw [BitVec.ofNat_mul, BitVec.ofNat_toNat, BitVec.setWidth_eq]
  rw [hmul, ← BitVec.ofNat_add, Nat.div_add_mod, BitVec.ofNat_toNat, BitVec.setWidth_eq]

theorem toNat_remUnsigned_lt {n : Nat} {a b : BitVec n} (hb : b ≠ 0) : (remUnsigned a b).toNat < b.toNat := by
  have hpos : 0 < b.toNat := Nat.pos_of_ne_zero fun h => hb (BitVec.eq_of_toNat_eq h)
  have hlt : a.toNat % b.toNat < b.toNat := Nat.mod_lt _ hpos
  rw [remUnsigned, if_neg hb, BitVec.toNat_ofNat, Nat.mod_eq_of_lt (hlt.trans b.isLt)]
  exact hlt

/-! ### The registers of the instructions -/

/-- The destination of an instruction that writes one register. -/
theorem getX_of_writeReg {i : Instr} {len : Word} {d : RegIdx} {v : Word} {s t : State} (hd : d ≠ 0)
    (hexec : exec i s = writeReg len d v s) (h : exec i s = .next t) : t.getX d = v := by
  rw [hexec, writeReg_eq_put_of_length] at h
  cases h
  exact State.getX_setX_same s d v hd

/-- The 32-bit value that a word form sign-extends. -/
theorem lo_sext (v : BitVec 32) : lo (sext v) = v := by
  apply BitVec.eq_of_getLsbD_eq
  intro k hk
  have hword : k < 64 := by omega
  rw [lo, sext, BitVec.getLsbD_setWidth, BitVec.getLsbD_signExtend]
  simp [hk, hword]

/-- Settles O12: the law of each width at the values the instructions write; a word form's is that of the low
halves. -/
theorem divisionLaw : Obligations.DivisionLaw := by
  intro s q r d e rs1 rs2 hd he
  refine ⟨fun hb => ⟨?div, ?divu⟩, fun hb => ⟨?divw, ?divuw⟩⟩
  case div =>
    intro hq hr
    rw [getX_of_writeReg hd rfl hq, getX_of_writeReg he rfl hr]
    exact ⟨mul_divSigned_add_remSigned hb, natAbs_remSigned_lt hb, remSigned_neg_iff hb⟩
  case divu =>
    intro hq hr
    rw [getX_of_writeReg hd rfl hq, getX_of_writeReg he rfl hr]
    exact ⟨mul_divUnsigned_add_remUnsigned hb, toNat_remUnsigned_lt hb⟩
  case divw =>
    intro hq hr
    rw [getX_of_writeReg hd rfl hq, getX_of_writeReg he rfl hr, divwVal, remwVal, lo_sext, lo_sext, low32_eq_lo,
      low32_eq_lo]
    exact ⟨mul_divSigned_add_remSigned hb, natAbs_remSigned_lt hb, remSigned_neg_iff hb⟩
  case divuw =>
    intro hq hr
    rw [getX_of_writeReg hd rfl hq, getX_of_writeReg he rfl hr, divuwVal, remuwVal, lo_sext, lo_sext, low32_eq_lo,
      low32_eq_lo]
    exact ⟨mul_divUnsigned_add_remUnsigned hb, toNat_remUnsigned_lt hb⟩

end Sys2Proof.Machine
end

section
/-! Fixed words (O3, O40), JALR (O14), the calls and breakpoints (O32), FENCE (O36), and the refused floating-point rows
(O38). -/

namespace Sys2Proof

/-! ### The words of the statements are those the encoder places -/

theorem Fields32.join_typeAny (op : BitVec 7) (b : BitVec 25) : (Fields32.typeAny op b).join = b ++ op :=
  congrArg (· ++ op) (Fields32.above_typeAny op b)

theorem Fields32.join_fence (fm pred succ : BitVec 4) (rs1 rd : RegIdx) :
    (Fields32.mk (fm ++ pred.extractLsb' 1 3) (pred.extractLsb' 0 1 ++ succ) rs1 0 rd 0x0F).join =
      fm ++ pred ++ succ ++ rs1 ++ 0b000#3 ++ rd ++ 0b0001111#7 := by
  apply BitVec.eq_of_getLsbD_eq
  intro i hi
  simp only [Fields32.join, BitVec.getLsbD_append, BitVec.getLsbD_extractLsb']
  interval_cases i <;> rfl

namespace Machine

open Sys2Proof.Claims Sys2Proof.Laws

/-- Settles O3: each word evaluates. -/
theorem exampleWordsDecode : Obligations.ExampleWordsDecode := by
  unfold Obligations.ExampleWordsDecode
  decide

/-- Settles O40: the zero parcel is a row of its own, whose arm stops with its bits. -/
theorem allZeroParcel : Obligations.AllZeroParcel := fun _ => ⟨rfl, rfl⟩

/-- Settles O14: JALR is one `jumpLink`, whose target is read before the link is written. -/
theorem indirectJump : Obligations.IndirectJump := fun _ rd rs1 imm =>
  does_of_encode (RoundTrip.jalr rd rs1 imm) rfl (wordI_eq_join ..) rfl

/-- An instruction that only raises an exception takes its trap in the state it runs in, with its own pc saved. -/
theorem does_raise {w : InstBits} {i : Instr} {e : Exc} {cause : Word} {s : State} (hrt : RoundTrip.Statement i)
    (hwf : WellFormed i) (hw : w = encode i) (hexec : exec i s = (Res.raise e 0 s).finish) (hcause : e.cause = cause) :
    Does w i s (trapEnter s.pc cause 0 s) :=
  does_of_encode hrt hwf hw (by rw [hexec, Res.finish, hcause])

/-- The cause of a call is 8 and the code of the level (R410). -/
theorem cause_ecallCode (p : Priv) : (ecallCode p).cause = 8 + p.code.setWidth 64 := by
  cases p <;> rfl

/-- Settles O32: each arm raises its exception and does nothing else. -/
theorem callAndBreakpoint : Obligations.CallAndBreakpoint := by
  intro s
  refine ⟨?ecall, ?ebreak, ?cEbreak⟩
  case ecall => exact does_raise RoundTrip.ecall rfl rfl rfl (cause_ecallCode s.priv)
  case ebreak => exact does_raise RoundTrip.ebreak rfl rfl rfl rfl
  case cEbreak => exact does_raise RoundTrip.cEbreak rfl rfl rfl rfl

/-- Settles O36: the arm of FENCE is the `nop` that reads no field. -/
theorem fenceForm : Obligations.FenceForm := fun _ fm pred succ rs1 rd =>
  does_nop (RoundTrip.fence fm pred succ rs1 rd) rfl
    (congrArg InstBits.full (Fields32.join_fence fm pred succ rs1 rd).symm) rfl

/-- Settles O38: each row is a major opcode, or a quadrant and funct3, with everything else open, and its arm refuses. -/
theorem floatingPointRefused : Obligations.FloatingPointRefused := by
  intro s b h c r
  have hword {i : Instr} (op : BitVec 7) (hrt : RoundTrip.Statement i) (hwf : WellFormed i)
      (henc : encode i = .full (Fields32.typeAny op b).join) (hexec : exec i s = .refused .floatingPoint) :
      r (.full (b ++ op)) i :=
    ⟨decode_eq_of_encode hrt hwf (by rw [henc, Fields32.join_typeAny]), hexec⟩
  have hparcel {i : Instr} (f3 : BitVec 3) (q : BitVec 2) (hrt : RoundTrip.Statement i) (hwf : WellFormed i)
      (henc : encode i = .half (Fields16.typeAny q f3 (h ++ c)).join) (hexec : exec i s = .refused .floatingPoint) :
      r (.half (f3 ++ (h ++ c) ++ q)) i :=
    ⟨decode_eq_of_encode hrt hwf (by rw [henc, Fields16.join_typeAny]), hexec⟩
  refine ⟨?loadFp, ?storeFp, ?fmadd, ?fmsub, ?fnmsub, ?fnmadd, ?opFp, ?fld, ?fsd, ?fldsp, ?fsdsp⟩
  case loadFp => exact hword _ (RoundTrip.loadFp b) rfl rfl rfl
  case storeFp => exact hword _ (RoundTrip.storeFp b) rfl rfl rfl
  case fmadd => exact hword _ (RoundTrip.fmadd b) rfl rfl rfl
  case fmsub => exact hword _ (RoundTrip.fmsub b) rfl rfl rfl
  case fnmsub => exact hword _ (RoundTrip.fnmsub b) rfl rfl rfl
  case fnmadd => exact hword _ (RoundTrip.fnmadd b) rfl rfl rfl
  case opFp => exact hword _ (RoundTrip.opFp b) rfl rfl rfl
  case fld => exact hparcel _ _ (RoundTrip.cFld (h ++ c)) rfl rfl rfl
  case fsd => exact hparcel _ _ (RoundTrip.cFsd (h ++ c)) rfl rfl rfl
  case fldsp => exact hparcel _ _ (RoundTrip.cFldsp (h ++ c)) rfl rfl rfl
  case fsdsp => exact hparcel _ _ (RoundTrip.cFsdsp (h ++ c)) rfl rfl rfl

end Machine

end Sys2Proof
end

section
/-! Trap returns (spec/46_system_privileged.md R413, R414; spec/60_exceptions.md R542): what SRET and MRET restore, and
that each undoes an entry into its mode. -/

namespace Sys2Proof.Machine

open Sys2Proof.Claims Sys2Proof.Laws

/-! ### The status word of a return, as a mask -/

/-- The bit `n` places above bit i, brought down by a shift. -/
theorem shiftRight_and_bit (w : Word) (i n : Nat) :
    (w >>> n) &&& (1#64 <<< i) = if w.getLsbD (i + n) then 1#64 <<< i else 0 := by
  rw [← BitVec.twoPow_eq, BitVec.and_twoPow, BitVec.getLsbD_ushiftRight, Nat.add_comm n i]
  rfl

/-- Bit i takes the value of the bit four above it, its saved copy. -/
theorem setBit_of_saved (w : Word) (i : Nat) :
    setBit w i (w.getLsbD (i + 4)) = (w &&& ~~~(1#64 <<< i)) ||| ((w >>> 4) &&& (1#64 <<< i)) := by
  rw [setBit_eq_mask, shiftRight_and_bit w i 4]

/-! ### The levels' codes (R37) -/

theorem Priv.ofCode_code (p : Priv) : Priv.ofCode p.code = some p := by
  cases p <;> rfl

theorem Priv.code_of_ofCode {c : BitVec 2} {p : Priv} (h : Priv.ofCode c = some p) : p.code = c := by
  revert h
  cases p <;> revert c <;> decide

theorem Priv.ofCode_eq_none_iff {c : BitVec 2} : Priv.ofCode c = none ↔ c = 2 := by
  revert c
  decide

/-! ### The outcomes of the two returns -/

theorem exec_sret_user {s : State} (h : s.priv = .user) : exec .sret s = .next (trapEnter s.pc 2 0 s) := by
  have hexit : trapExit .sret s = illegal s := if_pos h
  exact congrArg Res.finish hexit

theorem exec_sret {s : State} (h : s.priv ≠ .user) : exec .sret s = .next (returnFromSupervisor s) := by
  have hexit : trapExit .sret s = .done () (returnFromSupervisor s) := if_neg h
  exact congrArg Res.finish hexit

theorem exec_mret_illegal {s : State} (h : s.priv ≠ .machine) : exec .mret s = .next (trapEnter s.pc 2 0 s) := by
  have hexit : trapExit .mret s = illegal s := if_neg h
  exact congrArg Res.finish hexit

theorem exec_mret_refused {s : State} (h : s.priv = .machine) (hmpp : Priv.ofCode (mstatusMPP s.csr.mstatus) = none) :
    exec .mret s = .refused .badPrivilegeValue := by
  have hexit : trapExit .mret s = .refuse .badPrivilegeValue := by
    rw [trapExit, if_pos h, hmpp]
  exact congrArg Res.finish hexit

theorem exec_mret {s : State} {p : Priv} (h : s.priv = .machine)
    (hmpp : Priv.ofCode (mstatusMPP s.csr.mstatus) = some p) : exec .mret s = .next (returnFromMachine p s) := by
  have hexit : trapExit .mret s = .done () (returnFromMachine p s) := by
    rw [trapExit, if_pos h, hmpp]
  exact congrArg Res.finish hexit

/-- Settles O33: past the check, SIE is written with its saved copy, four bits up. -/
theorem supervisorReturn : Obligations.SupervisorReturn := by
  refine fun s => ⟨RoundTrip.sret rfl, exec_sret_user, fun h => ?_⟩
  have hstatus : setSIE s.csr.sstatus (sstatusSPIE s.csr.sstatus) =
      (s.csr.sstatus &&& ~~~(2 : Word)) ||| ((s.csr.sstatus >>> 4) &&& 2) :=
    setBit_of_saved s.csr.sstatus 1
  rw [exec_sret h, returnFromSupervisor, hstatus]
  rfl

/-- Settles O34: the code 2 is no level; at any other, past the check, MIE is written with its saved copy, four bits
up. -/
theorem machineReturn : Obligations.MachineReturn := by
  refine fun s => ⟨RoundTrip.mret rfl, exec_mret_illegal, fun h hmpp => ?refused, fun h hmpp => ?returns⟩
  case refused => exact exec_mret_refused h (Priv.ofCode_eq_none_iff.2 hmpp)
  case returns =>
    obtain ⟨p, hp⟩ := Option.ne_none_iff_exists'.1 (mt Priv.ofCode_eq_none_iff.1 hmpp)
    have hstatus : setMIE s.csr.mstatus (mstatusMPIE s.csr.mstatus) =
        (s.csr.mstatus &&& ~~~(8 : Word)) ||| ((s.csr.mstatus >>> 4) &&& 8) :=
      setBit_of_saved s.csr.mstatus 3
    refine ⟨p, Priv.code_of_ofCode hp, ?_⟩
    rw [exec_mret h hp, returnFromMachine, hstatus]

/-! ### The bits of a status word after a write of one bit -/

theorem getLsbD_setBit_same (w : Word) {i : Nat} (b : Bool) (hi : i < 64) : (setBit w i b).getLsbD i = b := by
  cases b <;> simp [setBit, hi]

theorem getLsbD_setBit_other (w : Word) {i k : Nat} (b : Bool) (h : k ≠ i) :
    (setBit w i b).getLsbD k = w.getLsbD k := by
  have hmask : (1#64 <<< i).getLsbD k = false := by
    rw [← BitVec.twoPow_eq, BitVec.getLsbD_twoPow, decide_eq_false h.symm, Bool.and_false]
  by_cases hk : k < 64
  · cases b with
    | false =>
      rw [setBit_false, BitVec.getLsbD_and, BitVec.getLsbD_not, hmask, decide_eq_true hk]
      exact Bool.and_true _
    | true =>
      have hset : setBit w i true = w ||| 1#64 <<< i := rfl
      rw [hset, BitVec.getLsbD_or, hmask, Bool.or_false]
  · rw [BitVec.getLsbD_of_ge _ _ (by omega), BitVec.getLsbD_of_ge _ _ (by omega)]

/-! ### An entry and the return from its mode -/

/-- The Supervisor half saves the level and the enable in bits that SRET reads. -/
theorem returnFromSupervisor_trapToSupervisor (epc cause tval : Word) (s : State) (h : s.priv ≠ .machine) :
    let u := returnFromSupervisor (trapToSupervisor epc cause tval s)
    u.priv = s.priv ∧ u.pc = epc ∧ u.csr.sstatus.getLsbD 1 = s.csr.sstatus.getLsbD 1 ∧ u.regs = s.regs ∧
      u.mem = s.mem := by
  have hspp (w : Word) (b e : Bool) : sstatusSPP (setSIE (setSPIE (setSPP w b) e) false) = b := by
    rw [sstatusSPP, setSIE, getLsbD_setBit_other _ _ (by decide), setSPIE, getLsbD_setBit_other _ _ (by decide), setSPP,
      getLsbD_setBit_same _ _ (by decide)]
  have hspie (w : Word) (e : Bool) : sstatusSPIE (setSIE (setSPIE w e) false) = e := by
    rw [sstatusSPIE, setSIE, getLsbD_setBit_other _ _ (by decide), setSPIE, getLsbD_setBit_same _ _ (by decide)]
  refine ⟨?level, rfl, ?enable, rfl, rfl⟩
  case level =>
    change (if sstatusSPP _ then Priv.supervisor else Priv.user) = s.priv
    rw [trapToSupervisor, hspp]
    cases hp : s.priv with
    | machine => exact absurd hp h
    | supervisor => rfl
    | user => rfl
  case enable =>
    change (setSIE _ (sstatusSPIE _)).getLsbD 1 = _
    rw [trapToSupervisor, hspie, setSIE, getLsbD_setBit_same _ _ (by decide), sstatusSIE]

/-- The Machine half saves the level and the enable in bits that MRET reads. -/
theorem returnFromMachine_trapToMachine (epc cause tval : Word) (s : State) :
    Priv.ofCode (mstatusMPP (trapToMachine epc cause tval s).csr.mstatus) = some s.priv ∧
      (returnFromMachine s.priv (trapToMachine epc cause tval s)).csr.mstatus.getLsbD 3 =
        s.csr.mstatus.getLsbD 3 := by
  have hmpie (w : Word) (e : Bool) : mstatusMPIE (setMIE (setMPIE w e) false) = e := by
    rw [mstatusMPIE, setMIE, getLsbD_setBit_other _ _ (by decide), setMPIE, getLsbD_setBit_same _ _ (by decide)]
  have hmpp (w : Word) (c : BitVec 2) (e : Bool) : mstatusMPP (setMIE (setMPIE (setMPP w c) e) false) = c := by
    apply BitVec.eq_of_getLsbD_eq
    intro k hk
    rw [mstatusMPP, BitVec.getLsbD_extractLsb', decide_eq_true hk, Bool.true_and, setMIE,
      getLsbD_setBit_other _ _ (by omega), setMPIE, getLsbD_setBit_other _ _ (by omega), setMPP]
    interval_cases k
    · rw [getLsbD_setBit_other _ _ (by decide), getLsbD_setBit_same _ _ (by decide)]
    · rw [getLsbD_setBit_same _ _ (by decide)]
  refine ⟨?level, ?enable⟩
  case level => rw [trapToMachine, hmpp, Priv.ofCode_code]
  case enable =>
    change (setMIE _ (mstatusMPIE _)).getLsbD 3 = _
    rw [trapToMachine, hmpie, setMIE, getLsbD_setBit_same _ _ (by decide), mstatusMIE]

/-- Settles O47: the entry lands in the half that the delegation test picks, and each half's return reads back what the
entry saved. -/
theorem trapReturnSymmetry : Obligations.TrapReturnSymmetry := by
  refine fun epc cause tval s => ⟨fun h => ?supervisor, fun h => ?machine⟩
  case supervisor =>
    obtain ⟨-, hpriv⟩ := (trapsToSupervisor_iff s cause).1 h
    rw [trapEnter_of_toSupervisor h]
    exact ⟨_, exec_sret nofun, returnFromSupervisor_trapToSupervisor epc cause tval s hpriv⟩
  case machine =>
    obtain ⟨hlevel, henable⟩ := returnFromMachine_trapToMachine epc cause tval s
    rw [trapEnter_of_not_toSupervisor (Bool.eq_false_iff.1 h)]
    exact ⟨_, exec_mret rfl hlevel, rfl, rfl, henable, rfl, rfl⟩

end Sys2Proof.Machine
end

section
/-! The CSRs (spec/10_state.md R50 to R75, spec/45_zicsr.md R391 to R398): the class of a number, the read by class, the
update after the read, and the six instructions by class. -/

namespace Sys2Proof.Machine

open Sys2Proof.Claims Sys2Proof.Laws

/-! ### The class of a number: the model's tests are the statement's tables and ranges -/

theorem isFloatCsr_iff {a : CsrNum} : isFloatCsr a = true ↔ a = 1 ∨ a = 2 ∨ a = 3 := by
  simp only [isFloatCsr, Bool.or_eq_true, beq_iff_eq, or_assoc]

theorem isPerfCsr_iff {a : CsrNum} : isPerfCsr a = true ↔ unsupportedNumber a := by
  simp only [isPerfCsr, Bool.or_eq_true, Bool.and_eq_true, decide_eq_true_eq, or_assoc]
  rfl

theorem mem_computedTable_iff {a : CsrNum} {c : CounterId} : (a, c) ∈ computedTable ↔ counterOfNumber a = some c := by
  constructor
  · have hall : ∀ p ∈ computedTable, counterOfNumber p.1 = some p.2 := by decide
    exact fun h => hall _ h
  · intro h
    unfold counterOfNumber at h
    split at h <;> cases h <;> decide

theorem ofNumber_of_counter {a : CsrNum} {c : CounterId} (h : counterOfNumber a = some c) :
    CsrName.ofNumber a = none := by
  have hall : ∀ p ∈ computedTable, CsrName.ofNumber p.1 = none := by decide
  exact hall _ (mem_computedTable_iff.2 h)

theorem ofNumber_of_perf {a : CsrNum} (h : isPerfCsr a = true) : CsrName.ofNumber a = none := by
  rw [Option.eq_none_iff_forall_ne_some]
  intro n hn
  rw [← CsrName.number_ofNumber hn] at h
  revert h
  cases n <;> decide

theorem counterOfNumber_of_perf {a : CsrNum} (h : isPerfCsr a = true) : counterOfNumber a = none := by
  rw [Option.eq_none_iff_forall_ne_some]
  intro c hc
  have hall : ∀ p ∈ computedTable, isPerfCsr p.1 = false := by decide
  exact Bool.false_ne_true ((hall _ (mem_computedTable_iff.2 hc)).symm.trans h)

section

variable {l : List CsrNum} {a : CsrNum} (hfloat : ¬ isFloatCsr a = true) (hset : a ∉ l)

include hfloat hset

theorem csrClass_of_ofNumber {n : CsrName} (h : CsrName.ofNumber a = some n) : csrClass l a = .stored n := by
  rw [csrClass, if_neg hfloat, if_neg (by simpa using hset), h]

theorem csrClass_of_counter {c : CounterId} (h : counterOfNumber a = some c) : csrClass l a = .computed c := by
  rw [csrClass, if_neg hfloat, if_neg (by simpa using hset), ofNumber_of_counter h, h]

theorem csrClass_of_no_slot (hstored : CsrName.ofNumber a = none) (hcomputed : counterOfNumber a = none) :
    csrClass l a = if isPerfCsr a then .unsupported else .unrecognized := by
  rw [csrClass, if_neg hfloat, if_neg (by simpa using hset), hstored, hcomputed]

end

/-- Settles O28: the tests of `csrClass` in their order; the table, the counters and the ranges name no number twice. -/
theorem csrClasses : Obligations.CsrClasses := by
  intro l a
  rw [← isFloatCsr_iff]
  refine ⟨fun hfloat => if_pos hfloat, fun hfloat hset => ?fatal, fun hfloat hset => ⟨fun n hn => ?stored,
    fun c hc => ?computed, fun hperf => ?unsupported, fun hstored hcomputed hperf => ?unrecognized⟩⟩
  case fatal => rw [csrClass, if_neg hfloat, if_pos (by simpa using hset)]
  case stored => exact csrClass_of_ofNumber hfloat hset (mem_storedTable_iff.1 hn)
  case computed => exact csrClass_of_counter hfloat hset (mem_computedTable_iff.1 hc)
  case unsupported =>
    have h := isPerfCsr_iff.2 hperf
    rw [csrClass_of_no_slot hfloat hset (ofNumber_of_perf h) (counterOfNumber_of_perf h), if_pos h]
  case unrecognized =>
    have hnone := Option.eq_none_iff_forall_ne_some.2 fun n => mt mem_storedTable_iff.2 (hstored n)
    have hnoCounter := Option.eq_none_iff_forall_ne_some.2 fun c => mt mem_computedTable_iff.2 (hcomputed c)
    rw [csrClass_of_no_slot hfloat hset hnone hnoCounter, if_neg (mt isPerfCsr_iff.1 hperf)]

/-! ### The read, by class (R70) -/

section

variable {a : CsrNum} {s : State}

theorem csrRead_refused (h : csrClass s.plat.csrFatalSet a = .refused) : csrRead a s = .refuse .floatingPoint := by
  rw [csrRead, h]

theorem csrRead_fatal (h : csrClass s.plat.csrFatalSet a = .fatal) : csrRead a s = .fatal (.csrPanic a) := by
  rw [csrRead, h]

theorem csrRead_illegal
    (h : csrClass s.plat.csrFatalSet a = .unsupported ∨ csrClass s.plat.csrFatalSet a = .unrecognized) :
    csrRead a s = .raise .illegalInstruction 0 s := by
  rcases h with h | h <;> rw [csrRead, h] <;> rfl

theorem csrRead_computed {c : CounterId} (h : csrClass s.plat.csrFatalSet a = .computed c) :
    csrRead a s = if s.priv.code.toNat < (a.extractLsb' 8 2).toNat then .raise .illegalInstruction 0 s
      else .done (Config.counterRead c s.draws) { s with draws := s.draws + 1 } := by
  rw [csrRead, h]
  rfl

theorem csrRead_stored {n : CsrName} (h : csrClass s.plat.csrFatalSet a = .stored n) :
    csrRead a s = if s.priv.code.toNat < (a.extractLsb' 8 2).toNat then .raise .illegalInstruction 0 s
      else .done (s.csr.get n) s := by
  rw [csrRead, h]
  rfl

end

/-- Settles O29: the read by class. -/
theorem csrReadRule : Obligations.CsrReadRule := fun _ _ =>
  ⟨csrRead_refused, csrRead_fatal, csrRead_illegal, fun _ => csrRead_computed, fun _ => csrRead_stored⟩

/-! ### The update, after the read (R71, R73) -/

theorem csrReadOnly_iff {a : CsrNum} : csrReadOnly a = true ↔ a.extractLsb' 10 2 = 3 := beq_iff_eq

/-- The part of an update that follows the read: the read-only test and the write. -/
def csrAfterRead (a : CsrNum) (data : Word) (op : CsrOp) (wr : Bool) (old : Word) (u : State) : Res Word :=
  if wr then
    if csrReadOnly a then illegal u else .done old (csrStore a (op.apply old data) u)
  else .done old u

theorem csrUpdate_of_valid {op : CsrOp} (hop : op.valid = true) (a : CsrNum) (data : Word) (wr : Bool) (s : State) :
    csrUpdate a data op wr s = (csrRead a s).bind (csrAfterRead a data op wr) := if_pos hop

section

variable {a : CsrNum} {data : Word} {op : CsrOp} {old : Word} {u : State}

theorem csrAfterRead_readOnly (h : a.extractLsb' 10 2 = 3) :
    csrAfterRead a data op true old u = .raise .illegalInstruction 0 u := by
  rw [csrAfterRead, if_pos rfl, if_pos (csrReadOnly_iff.2 h), illegal]

theorem csrAfterRead_writes {n : CsrName} (h : a.extractLsb' 10 2 ≠ 3) (hn : CsrName.ofNumber a = some n) :
    csrAfterRead a data op true old u = .done old { u with csr := u.csr.set n (op.apply old data) } := by
  rw [csrAfterRead, if_pos rfl, if_neg (mt csrReadOnly_iff.1 h), csrStore, CsrFile.setSlot_named _ hn]

theorem csrAfterRead_reads : csrAfterRead a data op false old u = .done old u := rfl

/-- A number that is not read-only and gives a value is that of a stored CSR. -/
theorem stored_of_csrRead_done {s : State} (h : csrRead a s = .done old u) (hro : a.extractLsb' 10 2 ≠ 3) :
    ∃ n, CsrName.ofNumber a = some n ∧ old = s.csr.get n ∧ u = s := by
  have hread : csrUpdate a 0 .write false s = .done old u := by
    rw [csrUpdate_of_valid rfl, h, Res.bind, csrAfterRead_reads]
  rcases csrUpdate_done hread with ⟨n, hclass, hold, hu⟩ | ⟨c, hclass, -⟩
  · exact ⟨n, csrClass_stored hclass, hold, hu⟩
  · exact absurd (csrReadOnly_iff.1 (csrClass_computed hclass)) hro

end

/-- Settles O30: the read ends the update or is followed by the read-only test and the write of the one slot. -/
theorem csrUpdateRule : Obligations.CsrUpdateRule := by
  refine fun a data wr s => ⟨fun code => rfl, fun op hop => ?_⟩
  have hvalid : op.valid = true := by
    rcases hop with rfl | rfl | rfl <;> rfl
  rw [csrUpdate_of_valid hvalid]
  refine ⟨fun e tval u h => ?raise, fun r h => ?fatal, fun r h => ?refuse, fun old u h => ?done⟩
  case raise => rw [h, Res.bind]
  case fatal => rw [h, Res.bind]
  case refuse => rw [h, Res.bind]
  case done =>
    rw [h, Res.bind]
    refine ⟨?reads, ?readOnly, ?writes⟩
    case reads =>
      rintro rfl
      exact csrAfterRead_reads
    case readOnly =>
      rintro rfl hro
      exact csrAfterRead_readOnly hro
    case writes =>
      rintro rfl hro
      obtain ⟨n, hn, hold, rfl⟩ := stored_of_csrRead_done h hro
      have hslot : (u.csr.set n (op.apply old data)).get n = op.apply old data := CsrFile.get_set_same ..
      refine ⟨n, mem_storedTable_iff.2 hn, hold, _, csrAfterRead_writes hro hn, rfl,
        fun m hm => CsrFile.get_set_other _ _ _ _ hm, ?write, ?set, ?clear⟩
      case write =>
        rintro rfl
        exact hslot
      case set =>
        rintro rfl
        exact hslot
      case clear =>
        rintro rfl
        exact hslot

/-! ### The instructions, by class (R391 to R398) -/

/-- An instruction whose arm is a CSR access ends as the class of its number says. -/
theorem csrRule_of_exec {i : Instr} {a : CsrNum} {data : Word} {op : CsrOp} {wr : Bool} {rd : RegIdx} {s : State}
    (hexec : exec i s = csrAccess a data op wr rd s) (hop : op.valid = true) :
    CsrRule i a wr (fun old => op.apply old data) rd s := by
  have hrun : exec i s = (((csrRead a s).bind (csrAfterRead a data op wr)).bind fun old u =>
      .done () ((u.setX rd old).advance ilen4)).finish := by
    rw [hexec, csrAccess, csrUpdate_of_valid hop]
  rw [CsrRule, hrun]
  cases hclass : csrClass s.plat.csrFatalSet a with
  | refused => rw [csrRead_refused hclass]; rfl
  | fatal => rw [csrRead_fatal hclass]; rfl
  | unsupported => rw [csrRead_illegal (.inl hclass)]; rfl
  | unrecognized => rw [csrRead_illegal (.inr hclass)]; rfl
  | computed c =>
    rw [csrRead_computed hclass]
    dsimp only
    split
    case isTrue => rfl
    case isFalse =>
      cases wr with
      | true =>
        rw [Res.bind, csrAfterRead_readOnly (csrReadOnly_iff.1 (csrClass_computed hclass))]
        rfl
      | false => rw [Res.bind, csrAfterRead_reads, Res.bind, setX_advance_eq_put]; rfl
  | stored n =>
    rw [csrRead_stored hclass]
    dsimp only
    split
    case isTrue => rfl
    case isFalse =>
      cases wr with
      | true =>
        rw [Res.bind, if_pos rfl]
        split
        case isTrue hro => rw [csrAfterRead_readOnly hro]; rfl
        case isFalse hro =>
          rw [csrAfterRead_writes hro (csrClass_stored hclass), Res.bind, setX_advance_eq_put]
          rfl
      | false => rw [Res.bind, csrAfterRead_reads, Res.bind, setX_advance_eq_put]; rfl

/-- The write flag of the SET and CLEAR forms (R391). -/
theorem bne_zero_eq_decide {n : Nat} (v : BitVec n) : (v != 0) = decide (v ≠ 0) := by
  rw [Bool.eq_iff_iff, bne_iff_ne, decide_eq_true_iff]

/-- Settles O31: each is one CSR access, with its operation and its write flag. -/
theorem csrInstructions : Obligations.CsrInstructions := by
  intro s rd rs1 u a t z
  rw [← bne_zero_eq_decide, ← bne_zero_eq_decide]
  refine ⟨⟨?rwDecode, ?rw⟩, ⟨?rsDecode, ?rs⟩, ⟨?rcDecode, ?rc⟩, ⟨?rwiDecode, ?rwi⟩, ⟨?rsiDecode, ?rsi⟩, ?rciDecode,
    ?rci⟩
  case rwDecode => exact decode_eq_of_encode (RoundTrip.csrrw rd rs1 a) rfl (wordI_eq_join ..)
  case rw => exact csrRule_of_exec (op := .write) rfl rfl
  case rsDecode => exact decode_eq_of_encode (RoundTrip.csrrs rd rs1 a) rfl (wordI_eq_join ..)
  case rs => exact csrRule_of_exec (op := .set) rfl rfl
  case rcDecode => exact decode_eq_of_encode (RoundTrip.csrrc rd rs1 a) rfl (wordI_eq_join ..)
  case rc => exact csrRule_of_exec (op := .clear) rfl rfl
  case rwiDecode => exact decode_eq_of_encode (RoundTrip.csrrwi rd u a) rfl (wordI_eq_join ..)
  case rwi => exact csrRule_of_exec (op := .write) rfl rfl
  case rsiDecode => exact decode_eq_of_encode (RoundTrip.csrrsi rd u a) rfl (wordI_eq_join ..)
  case rsi => exact csrRule_of_exec (op := .set) rfl rfl
  case rciDecode => exact decode_eq_of_encode (RoundTrip.csrrci rd u a) rfl (wordI_eq_join ..)
  case rci => exact csrRule_of_exec (op := .clear) rfl rfl

end Sys2Proof.Machine
end

section
/-! The cycle (spec/60_exceptions.md R503, R504; spec/20_memory.md R140 to R142): how a parcel, a fetch and a step end, and
from these the step of a decoded instruction (O49), the fetch without one (O50) and the halted hart (O51). -/

namespace Sys2Proof.Machine

open Sys2Proof.Claims Sys2Proof.Laws

/-! ### A parcel (R140) -/

section

variable {va : Word} {s v : State}

theorem fetch16_odd (h : va.getLsbD 0 = true) : fetch16 va s = .raise .instrMisaligned va s := if_pos h

theorem fetch16_even (h : va.getLsbD 0 = false) :
    fetch16 va s = (translateVa .fetch va s).bind fun pa u =>
      (physRead pa 2 .none u).bind fun w t => .done (w.extractLsb' 0 16) t :=
  if_neg (Bool.eq_false_iff.1 h)

theorem fetch16_raise {e : Exc} {tval : Word} (hva : va.getLsbD 0 = false)
    (h : translateVa .fetch va s = .raise e tval v) : fetch16 va s = .raise .instrPageFault va v := by
  obtain ⟨rfl, rfl, -⟩ := translateVa_raise h
  rw [fetch16_even hva, h]
  rfl

theorem fetch16_fatal {r : Fault} (hva : va.getLsbD 0 = false) (h : translateVa .fetch va s = .fatal r) :
    fetch16 va s = .fatal r := by
  rw [fetch16_even hva, h]
  rfl

theorem fetch16_absent {pa off : Word} (hva : va.getLsbD 0 = false) (h : translateVa .fetch va s = .done pa v)
    (hr : v.plat.physMap.route pa = (.absent, off)) : fetch16 va s = .fatal (.noDevice pa 2 .read) := by
  rw [fetch16_even hva, h, Res.bind, physRead_absent rfl hr]
  rfl

theorem pc_of_fetch16_done {p : BitVec 16} (h : fetch16 va s = .done p v) : v.pc = s.pc := by
  have hleaves := fetch16_leaves va s
  rw [h] at hleaves
  exact MemOnly.pc hleaves

theorem even_of_fetch16_done {p : BitVec 16} (h : fetch16 va s = .done p v) : va.getLsbD 0 = false := by
  by_contra hodd
  rw [fetch16_odd (Bool.not_eq_false _ ▸ hodd)] at h
  cases h

end

/-- The address of the second parcel is even as the first's is. -/
theorem getLsbD_zero_add_two (a : Word) : (a + 2).getLsbD 0 = a.getLsbD 0 := by
  have hparity : (a + 2).toNat % 2 = a.toNat % 2 := by
    rw [BitVec.toNat_add]
    simp only [BitVec.reduceToNat]
    omega
  rw [BitVec.getLsbD, BitVec.getLsbD, Nat.testBit_zero, Nat.testBit_zero, hparity]

/-! ### A fetch (R504) -/

section

variable {s v : State}

theorem fetch_first_raise {e : Exc} {tval : Word} (h : fetch16 s.pc s = .raise e tval v) :
    fetch s = .raise e tval v := by
  rw [fetch, h]
  rfl

theorem fetch_first_fatal {r : Fault} (h : fetch16 s.pc s = .fatal r) : fetch s = .fatal r := by
  rw [fetch, h]
  rfl

theorem fetch_half {p : BitVec 16} (h : fetch16 s.pc s = .done p v) (hlow : p.extractLsb' 0 2 ≠ 3) :
    fetch s = .done (.half p) v := by
  rw [fetch, h, Res.bind, isLong, if_neg (mt beq_iff_eq.1 hlow)]

theorem fetch_full {p : BitVec 16} (h : fetch16 s.pc s = .done p v) (hlow : p.extractLsb' 0 2 = 3) :
    fetch s = (fetch16 (s.pc + 2) v).bind fun p1 t => .done (.full (p1 ++ p)) t := by
  rw [fetch, h, Res.bind, isLong, if_pos (beq_iff_eq.2 hlow), pc_of_fetch16_done h]

end

/-! ### A step (R40, R503) -/

section

variable {s u v : State}

theorem step_running (h : s.halted = .running) : step s = fetchAndRun (handleInterrupt s) := by
  rw [step, stepState, h, cycle]

theorem step_halted {r : Fault} (h : s.halted = .fatal r) : step s = .fault r := by
  rw [step, stepState, h]

theorem fetchAndRun_done {bits : InstBits} {i : Instr} (h : fetch u = .done bits v) (hd : decode bits = .ok i) :
    fetchAndRun u = exec i v := by
  simp only [fetchAndRun, h, decodeAndRun, hd]

theorem fetchAndRun_reject {bits : InstBits} {r : Reject} (h : fetch u = .done bits v) (hd : decode bits = .error r) :
    fetchAndRun u = rejectOutcome r := by
  simp only [fetchAndRun, h, decodeAndRun, hd]

theorem fetchAndRun_fatal {r : Fault} (h : fetch u = .fatal r) : fetchAndRun u = .fault r := by
  rw [fetchAndRun, h]

/-- A fetch changes no pc, so the saved pc is that of the fetch. -/
theorem fetchAndRun_raise {e : Exc} {tval : Word} (h : fetch u = .raise e tval v) :
    fetchAndRun u = .next (trapEnter u.pc e.cause tval v) := by
  have hleaves := fetch_leaves u
  rw [h] at hleaves
  rw [← MemOnly.pc hleaves, fetchAndRun, h]

end

/-- Settles O49: where translation is off a parcel is the two bytes of its memory device, and the second is read from the
state the first left, which is the same. -/
theorem stepRunsDecoded : Obligations.StepRunsDecoded := by
  intro s i u hrun
  have hstep : step s = fetchAndRun u := step_running hrun
  rw [hstep]
  clear_value u
  refine ⟨fun bits v => fetchAndRun_done, fun heven hoff b0 o0 hr0 => ?_⟩
  have htrans : u.translating = false := by
    rw [Bool.eq_false_iff, ne_eq, translating_iff]
    tauto
  have hfirst := fetch16_memory heven htrans hr0
  refine ⟨fun hlow hd => ?half, fun hlow b1 o1 hr1 => ?full⟩
  case half => exact fetchAndRun_done (fetch_half hfirst hlow) hd
  case full =>
    intro p1 hd
    have hsecond := fetch16_memory ((getLsbD_zero_add_two u.pc).trans heven) htrans hr1
    exact fetchAndRun_done (by rw [fetch_full hfirst hlow, hsecond, Res.bind]) hd

/-- Settles O50: each ending of a parcel, the first or the second, is that of the fetch and of the step. -/
theorem fetchOutcomes : Obligations.FetchOutcomes := by
  intro s u hrun
  have hstep : step s = fetchAndRun u := step_running hrun
  rw [hstep]
  clear_value u
  refine ⟨fun hodd => ?odd, fun heven e tval v h => ?firstRaise, fun p0 v hfirst hlow e tval w h => ?secondRaise,
    fun heven => ⟨fun r h => ?firstFatal, fun pa v off h hr => ?firstAbsent⟩,
    fun p0 v hfirst hlow => ⟨fun r h => ?secondFatal, fun pa w off h hr => ?secondAbsent⟩,
    fun r h => fetchAndRun_fatal h, fun bits v h => ⟨fun x hd => fetchAndRun_reject h hd, fun hd =>
      fetchAndRun_reject h hd⟩⟩
  case odd => exact fetchAndRun_raise (e := .instrMisaligned) (fetch_first_raise (fetch16_odd hodd))
  case firstRaise => exact fetchAndRun_raise (e := .instrPageFault) (fetch_first_raise (fetch16_raise heven h))
  case firstFatal => exact fetchAndRun_fatal (fetch_first_fatal (fetch16_fatal heven h))
  case firstAbsent => exact fetchAndRun_fatal (fetch_first_fatal (fetch16_absent heven h hr))
  all_goals have heven : (u.pc + 2).getLsbD 0 = false :=
    (getLsbD_zero_add_two u.pc).trans (even_of_fetch16_done hfirst)
  case secondRaise =>
    exact fetchAndRun_raise (e := .instrPageFault)
      (by rw [fetch_full hfirst hlow, fetch16_raise heven h, Res.bind])
  case secondFatal => exact fetchAndRun_fatal (by rw [fetch_full hfirst hlow, fetch16_fatal heven h, Res.bind])
  case secondAbsent => exact fetchAndRun_fatal (by rw [fetch_full hfirst hlow, fetch16_absent heven h hr, Res.bind])

/-! ### The halted mark (R13, R40) -/

theorem pollInputs_cons {s : State} {i : IrqSample} {rest : List IrqSample} (h : s.irqInputs = i :: rest) :
    pollInputs s = (i, { s with irqInputs := rest }) := by
  unfold pollInputs
  split
  case h_1 h' =>
    cases h.symm.trans h'
    rfl
  case h_2 h' => cases h.symm.trans h'

theorem pollInputs_nil {s : State} (h : s.irqInputs = []) :
    pollInputs s = (⟨Config.pollExternal s.draws, Config.pollTimer s.draws⟩, { s with draws := s.draws + 1 }) := by
  unfold pollInputs
  split
  case h_1 h' => cases h.symm.trans h'
  case h_2 => rfl

/-- The sample of the inputs consumes one entry, or draws two free values where there is none (R520). -/
theorem pollInputs_state (s : State) :
    (pollInputs s).2 = { s with
      irqInputs := s.irqInputs.tail
      draws := if s.irqInputs = [] then s.draws + 1 else s.draws } := by
  cases h : s.irqInputs with
  | nil => rw [pollInputs_nil h, if_pos rfl, List.tail_nil, ← h]
  | cons i rest => rw [pollInputs_cons h, if_neg (List.cons_ne_nil i rest), List.tail_cons]

theorem settle_halted {s : State} {r : Fault} (h : s.halted = .fatal r) : settle s = s := by
  have hstep : stepState s = .fault r := step_halted h
  rw [settle, hstep]
  dsimp only
  rw [h]

theorem settle_fault {s : State} {r : Fault} (h : s.halted = .running) (hstep : step s = .fault r) :
    settle s = { (pollInputs s).2 with halted := .fatal r } := by
  have hstep' : stepState s = .fault r := hstep
  rw [settle, hstep']
  dsimp only
  rw [h]

/-- Settles O51: a fatal cycle of a running hart keeps the state that the sample of the inputs left, with the mark set,
and a marked hart performs no cycle. -/
theorem haltedHart : Obligations.HaltedHart := by
  refine fun s r => ⟨fun h => ⟨step_halted h, settle_halted h⟩, fun h hstep => ⟨?state, ?again⟩, rfl⟩
  case state => rw [settle_fault h hstep, pollInputs_state]
  case again =>
    rw [settle_fault h hstep]
    exact step_halted rfl

end Sys2Proof.Machine
end

section
/-! The interrupt check (spec/60_exceptions.md R520 to R522; O48) and the state after reset (spec/10_state.md R80,
spec/70_reset_and_hazards.md R570, R572; O52). -/

namespace Sys2Proof.Machine

open Sys2Proof.Claims Sys2Proof.Laws

/-! ### The model's spelling of the interrupt rules is the statement's -/

theorem irqToSupervisor_iff {s : State} {c : BitVec 6} : s.irqToSupervisor c = true ↔ irqToS s c := by
  rw [State.irqToSupervisor, Bool.and_eq_true, decide_eq_true_iff]
  rfl

/-- The enable rule, in the mode the interrupt would land in (R521). -/
theorem irqEnabled_iff {s : State} {c : BitVec 6} : s.irqEnabled c = true ↔ irqOn s c := by
  rw [State.irqEnabled, irqOn, ← irqToSupervisor_iff]
  cases s.irqToSupervisor c with
  | true => simp [sstatusSIE, codeBit]
  | false => simp [mstatusMIE, codeBit]

theorem irqCause_eq (c : BitVec 6) : irqCause c = BitVec.ofNat 64 (2 ^ 63 + c.toNat) := by
  have hall : ∀ c : BitVec 6, irqCause c = BitVec.ofNat 64 (2 ^ 63 + c.toNat) := by decide
  exact hall c

theorem setBit_true (w : Word) (i : Nat) : setBit w i true = w ||| BitVec.ofNat 64 (2 ^ i) := by
  have hbit : 1#64 <<< i = BitVec.ofNat 64 (2 ^ i) := by
    apply BitVec.eq_of_toNat_eq
    simp [Nat.shiftLeft_eq]
  exact congrArg (w ||| ·) hbit

theorem takeInterrupt_irqTaken (c : BitVec 6) (s : State) : IrqTaken c s (takeInterrupt c s) := by
  rw [IrqTaken, takeInterrupt, irqCause_eq, setBit_true, setBit_true, ← irqToSupervisor_iff]
  refine ⟨fun h => ?_, fun h => ?_⟩
  · rw [if_pos h]
    rfl
  · rw [if_neg h]
    rfl

/-- The check with the sample and the state that the sampling leaves: external first, at most one. -/
theorem handleInterrupt_irqCheck (s : State) :
    IrqCheck (pollInputs s).1 (pollInputs s).2 (handleInterrupt s) := by
  have htest (i : Bool) (c : BitVec 6) (t : State) : (t.irqEnabled c && i) = true ↔ i = true ∧ irqOn t c := by
    rw [Bool.and_eq_true, irqEnabled_iff, and_comm]
  unfold handleInterrupt IrqCheck
  refine ⟨fun hext => ?external, fun hext htim => ?timer, fun hext htim => ?none⟩
  case external =>
    rw [if_pos ((htest ..).2 hext)]
    exact takeInterrupt_irqTaken _ _
  case timer =>
    rw [if_neg (mt (htest ..).1 hext), if_pos ((htest ..).2 htim)]
    exact takeInterrupt_irqTaken _ _
  case none => rw [if_neg (mt (htest ..).1 hext), if_neg (mt (htest ..).1 htim)]

/-- Settles O48: the check after either way of sampling. -/
theorem interruptCheck : Obligations.InterruptCheck := by
  intro s
  have hcheck := handleInterrupt_irqCheck s
  refine ⟨fun i rest h => ?queue, fun h => ?free⟩
  case queue => rwa [pollInputs_cons h] at hcheck
  case free => rwa [pollInputs_nil h] at hcheck

/-! ### Reset -/

theorem State.getX_eq_zero_of_regs {t : State} (h : t.regs = Vector.replicate 31 0) (i : RegIdx) : t.getX i = 0 := by
  have hreset : ∀ i, State.reset.getX i = 0 := by decide
  exact (State.getX_congr h i).trans (hreset i)

/-- Settles O52: the hart's own fields are those of `State.reset`, the others are kept. -/
theorem resetState : Obligations.ResetState := by
  refine ⟨fun s t ht => ?fields, fun k => rfl, fun pa => rfl, rfl, rfl, rfl, rfl⟩
  have ht' : t = s.hartReset := by
    rcases ht with rfl | ⟨rfl, rfl⟩ <;> rfl
  subst ht'
  refine ⟨rfl, rfl, State.getX_eq_zero_of_regs rfl, fun i => ?fregs, fun n => ?get, CsrFile.zero_slot, rfl, rfl, rfl, rfl,
    rfl, rfl⟩
  case fregs => exact Vector.getElem_replicate i.isLt
  case get => cases n <;> rfl

end Sys2Proof.Machine
end
